-- ==== Sys2Proof/Word.lean ====
section
/-! DEFINITION. The word types of LCDF: bytes, bus addresses and controller addresses (R7, R22, R52). -/

namespace Sys2Proof

/-- An 8-bit value, bit 0 the least significant (R7). -/
abbrev Byte := BitVec 8

/-- A peripheral address on the bus, `BUSADDR_BITS` = 7 bits (R22). -/
abbrev BusAddr := BitVec 7

/-- An address of the controller's display memory, 7 bits (R52). -/
abbrev DdramAddr := BitVec 7

/-- Half of a byte, the payload of one triple (R12). -/
abbrev Nibble := BitVec 4

end Sys2Proof
end

