-- ==== Sys2Proof/Config.lean ====
section
/-! DEFINITION. The configuration record `CFG` (R5) as a type, the six geometries, and the free values of
the reference receiver. The spec's default values stand in Machine/Defaults.lean (`Config.cfg`). -/

namespace Sys2Proof

/-- The geometries: "fixed set: six variants" (R21), named by columns and rows. -/
inductive Geom where
  | g8x1 | g8x2 | g16x2 | g16x4 | g20x2 | g20x4
  deriving DecidableEq, Repr

/-- The fixed set, in code order; its length is `NGEOM`. -/
def Geom.all : List Geom := [.g8x1, .g8x2, .g16x2, .g16x4, .g20x2, .g20x4]

/-- A geometry's visible columns and rows (R21). -/
structure Shape where
  cols : Nat
  rows : Nat
  deriving DecidableEq, Repr

/-- `CFG` (R5): the parameters every rule names, one field each. -/
structure Cfg where
  /-- `BLANK`: the blank character. -/
  blank : Byte
  /-- `NGEOM`: the codes below it are geometries. At most the six rows of `GEOMTAB` (log entry 11). -/
  nGeom : Nat
  /-- `GEOMTAB[g]`. -/
  geomTab : Geom → Shape
  /-- `ROWBASE[0]`. -/
  rowBase0 : DdramAddr
  /-- `ROWBASE[1]`. -/
  rowBase1 : DdramAddr
  /-- `NIBBLE_MASK`: the payload's place in a bus byte. -/
  nibbleMask : Byte
  /-- `RS_MASK`: register select. -/
  rsMask : Byte
  /-- `RW_MASK`: read/write, never driven to 1. -/
  rwMask : Byte
  /-- `EN_MASK`: strobe. -/
  enMask : Byte
  /-- `BL_MASK`: backlight. -/
  blMask : Byte
  /-- `OPC_SET_DDRAM`. -/
  opcSetDdram : Byte
  /-- `INIT_NIBBLE[0..3]`. -/
  initNibble : Fin 4 → Byte
  /-- `CMD_FUNCTION_SET`. -/
  cmdFunctionSet : Byte
  /-- `CMD_ENTRY_MODE`. -/
  cmdEntryMode : Byte
  /-- `CMD_DISPLAY_ON`. -/
  cmdDisplayOn : Byte
  /-- `CMD_CLEAR_DISPLAY`. -/
  cmdClearDisplay : Byte
  /-- `T_POWERON_MS`. -/
  tPowerOnMs : Nat
  /-- `T_INIT_NIBBLE_MS[0..3]`. -/
  tInitNibbleMs : Fin 4 → Nat
  /-- `T_CMD_MS[0..3]`. -/
  tCmdMs : Fin 4 → Nat
  /-- `TERMINATOR`: the byte that ends a text. -/
  terminator : Byte
  /-- `BUSADDR_BITS`: a bus address is below `2 ^ busAddrBits`. At most the 7 bits of `BusAddr` (log entry 11). -/
  busAddrBits : Nat
  /-- `FAULT_UNSUPPORTED_GEOMETRY`. -/
  faultUnsupportedGeometry : Nat

/-- What the configuration commands set in the reference receiver (R71). -/
structure DisplaySettings where
  twoLines : Bool
  smallFont : Bool
  increment : Bool
  shift : Bool
  displayOn : Bool
  cursor : Bool
  blink : Bool
  deriving DecidableEq, Repr, Inhabited

/-! Free values of the reference receiver (log entry 14): no body, so no proof can see them. LCDF itself
uses none. The `Nat` is the number of nibbles latched so far, so each use is a fresh value. -/

/-- What the unconnected lines D3..D0 read in 8-bit mode (R69). -/
opaque Config.openLines : Nat → Nibble

/-- The address counter after a command the spec gives no meaning (R100). -/
opaque Config.recvFreeAc : Byte → Nat → DdramAddr

/-- The display memory after a command the spec gives no meaning (R100). -/
opaque Config.recvFreeDdram : Byte → Nat → DdramAddr → Byte

/-- The settings after a command the spec gives no meaning (R100). -/
opaque Config.recvFreeSettings : Byte → Nat → DisplaySettings

end Sys2Proof
end

