-- ==== Sys2Proof/Machine/Defaults.lean ====
section
/-! DEFINITION. The spec's default `CFG` (R5, decisions D1 to D10, D14; log entry 1). They stand here, and not in
Config.lean, because every one of them is configuration that an audit may change (D30). -/

namespace Sys2Proof

/-- `GEOMTAB` (R5, D2). -/
def Config.geomTab : Geom → Shape
  | .g8x1 => ⟨8, 1⟩
  | .g8x2 => ⟨8, 2⟩
  | .g16x2 => ⟨16, 2⟩
  | .g16x4 => ⟨16, 4⟩
  | .g20x2 => ⟨20, 2⟩
  | .g20x4 => ⟨20, 4⟩

/-- `INIT_NIBBLE[0..3]` (R5, D6). -/
def Config.initNibble (k : Fin 4) : Byte := if k = 3 then 0x20#8 else 0x30#8

/-- The default configuration. -/
def Config.cfg : Cfg where
  blank := 0x20#8
  nGeom := 6
  geomTab := Config.geomTab
  rowBase0 := 0x00#7
  rowBase1 := 0x40#7
  nibbleMask := 0xF0#8
  rsMask := 0x01#8
  rwMask := 0x02#8
  enMask := 0x04#8
  blMask := 0x08#8
  opcSetDdram := 0x80#8
  initNibble := Config.initNibble
  cmdFunctionSet := 0x28#8
  cmdEntryMode := 0x06#8
  cmdDisplayOn := 0x0C#8
  cmdClearDisplay := 0x01#8
  tPowerOnMs := 50
  tInitNibbleMs := fun _ => 5
  tCmdMs := fun _ => 5
  terminator := 0x00#8
  busAddrBits := 7
  faultUnsupportedGeometry := 1

end Sys2Proof
end

