-- ==== Sys2Proof/Syntax.lean ====
section
/-! DEFINITION. The instructions: one constructor per row of spec/opcode_table.json, and the form in which a
request reaches the decoder. -/

namespace Sys2Proof

/-- Every row of the opcode table: the host requests of R94, the framer's function and internal operations
(R110 to R112, R150, R151), the controller values of R99 and the bus byte of R81. -/
inductive Instr where
  /-- CONSTRUCT (R130): `geom[2:0]`, `busaddr[6:0]`. -/
  | construct (geom : BitVec 3) (busaddr : BusAddr)
  /-- INITIALIZE (R133). -/
  | init
  /-- CLEAR (R170). -/
  | clear
  /-- PRINT (R171): `row[7:0]`, `col[7:0]`, `text` a finite byte list (R96, R97). -/
  | print (row col : Byte) (text : List Byte)
  /-- REFRESH (R152). -/
  | refresh
  /-- BACKLIGHT (R176): `on[0]`. -/
  | backlight (on : Bool)
  /-- Reserved selector 6 (R98). -/
  | reserved6
  /-- Reserved selector 7 (R98). -/
  | reserved7
  /-- TRIPLE (R110): payload in `n[7:4]`. -/
  | triple (n : Byte) (rs bl : Bool)
  /-- NIBBLE_WRITE (R111): payload in `n[7:4]`. -/
  | nibbleWrite (n : Byte) (rs : Bool)
  /-- BYTE_WRITE (R112). -/
  | byteWrite (v : Byte) (rs : Bool)
  /-- ADDRESS_SET (R150). -/
  | addressSet (a : DdramAddr)
  /-- DATA_WRITE (R151). -/
  | dataWrite (v : Byte)
  /-- INIT_8BIT (R99): `0011xxxx`, the low four bits not sent. -/
  | init8bit (x : Nibble)
  /-- INIT_4BIT (R99): `0010xxxx`, the low four bits not sent. -/
  | init4bit (x : Nibble)
  /-- FUNCTION_SET (R99). -/
  | functionSet
  /-- ENTRY_MODE (R99). -/
  | entryMode
  /-- DISPLAY_ON (R99). -/
  | displayOn
  /-- CLEAR_DISPLAY (R99). -/
  | clearDisplay
  /-- SET_DDRAM_ADDR (R99): `1aaaaaaa`. -/
  | setDdramAddr (a : DdramAddr)
  /-- DATA (R99): `cccccccc` with RS = 1. -/
  | data (v : Byte)
  /-- BUSBYTE (R81): `ddddbe0r`. -/
  | busByte (d : Nibble) (bl en rs : Bool)
  deriving DecidableEq, Repr

/-- Which layer of R80 a request's bytes are written in. Only `host` is open to the host (R94); the other
layers are LCDF's own, and the model lets each be run by itself (log entry 4). The controller values need
three layers, since their patterns overlap and only the frame and RS tell them apart (R99, R100). -/
inductive Layer where
  | host
  | triple
  | nibbleWrite
  | byteWrite
  | addressSet
  | dataWrite
  /-- Controller value with RS = 0 in a nibble frame. -/
  | ctrlNibble
  /-- Controller value with RS = 0 in a byte frame. -/
  | ctrlCommand
  /-- Controller value with RS = 1 in a byte frame. -/
  | ctrlData
  | busByte
  deriving DecidableEq, Repr

/-- One request: its layer and its bytes (log entry 3). -/
structure Request where
  layer : Layer
  bytes : List Byte
  deriving DecidableEq, Repr

end Sys2Proof
end

