-- ==== Sys2Proof/WellFormed.lean ====
section
/-! DEFINITION. Which instruction terms an encoding can carry. Operand widths are fixed by type; two checks remain: the
low four bits of TRIPLE's operand, which never reach the bus (R92), have no place in its words, and CONSTRUCT's bus
address has `BUSADDR_BITS` bits (R22). -/

namespace Sys2Proof

/-- The bits of a payload operand outside `NIBBLE_MASK`, which it leaves unused, are zero. -/
abbrev payloadOnly (c : Cfg) (n : Byte) : Prop := n &&& ~~~c.nibbleMask = 0#8

/-- A bus address of `BUSADDR_BITS` bits. -/
abbrev addressFits (c : Cfg) (a : BusAddr) : Prop := a.toNat < 2 ^ c.busAddrBits

/-- The term is the reading of some words, under a CFG. `exec` does not ask for it: a TRIPLE with low bits set runs as
R92 says. -/
def WellFormedWith (c : Cfg) : Instr → Bool
  | .triple n _ _ => decide (payloadOnly c n)
  | .construct _ a => decide (addressFits c a)
  | .init | .clear | .print _ _ _ | .refresh | .backlight _ | .reserved6 | .reserved7
  | .nibbleWrite _ _ | .byteWrite _ _ | .addressSet _ | .dataWrite _
  | .init8bit _ | .init4bit _ | .functionSet | .entryMode | .displayOn | .clearDisplay
  | .setDdramAddr _ | .data _ | .busByte _ _ _ _ => true

/-- The same under the default CFG. -/
def WellFormed (i : Instr) : Bool := WellFormedWith Config.cfg i

end Sys2Proof
end

