-- ==== Sys2Proof/Decode.lean ====
section
/-! DEFINITION. From the bytes of a request to an instruction, or to a rejection by name; and the encoder written from the
same tables (R81, R87, R94, R99, log entry 3). Both take a CFG, since masks, opcode and command values are its fields
(R5, R81); `decode` and `encode` are those under the default CFG. After them, the reading of a word numbered as
spec/opcode_table.json numbers it. -/

namespace Sys2Proof

/-- Why the decoder rejects a request's bytes. -/
inductive DecodeError where
  /-- An operand is missing. -/
  | truncated
  /-- Bytes stand after the last operand. -/
  | trailing
  /-- A bit that belongs to no field is set, or a fixed bit differs from its pattern. -/
  | reservedBits
  /-- The three bytes of a triple disagree in payload, backlight or RS. -/
  | tripleMismatch
  /-- A value in no row of the controller table (R99, R100). -/
  | noSuchCommand
  deriving DecidableEq, Repr

/-! ## Fields of a byte -/

/-- Bits 7..4. -/
def hiNibble (b : Byte) : Nibble := b.extractLsb' 4 4

/-- Bits 3..0. -/
def loNibble (b : Byte) : Nibble := b.extractLsb' 0 4

/-- Bits 6..0, an address operand. -/
def addressBits (b : Byte) : BitVec 7 := b.extractLsb' 0 7

/-- The line of a bus byte that a one-bit mask of CFG places (R81). -/
def lineOf (m b : Byte) : Bool := decide (b &&& m ≠ 0#8)

/-- That line driven (R81). -/
def lineBits (m : Byte) (on : Bool) : Byte := if on then m else 0#8

/-- The bits of a bus byte that LCDF always drives to 0 (R85). -/
def unusedLines (c : Cfg) (b : Byte) : Byte := b &&& ~~~(c.nibbleMask ||| c.rsMask ||| c.enMask ||| c.blMask)

/-- A byte whose bits above bit 0 are zero holds one bit. -/
def decodeBit (b : Byte) (k : Bool → Instr) : Except DecodeError Instr :=
  if b.extractLsb' 1 7 = 0#7 then .ok (k (b.getLsbD 0)) else .error .reservedBits

/-- A request without operands. -/
def decodeNone (i : Instr) : List Byte → Except DecodeError Instr
  | [] => .ok i
  | _ :: _ => .error .trailing

/-- A request of one byte. -/
def decodeOne (k : Byte → Except DecodeError Instr) : List Byte → Except DecodeError Instr
  | [] => .error .truncated
  | [b] => k b
  | _ :: _ :: _ => .error .trailing

/-- A request of two bytes. -/
def decodeTwo (k : Byte → Byte → Except DecodeError Instr) : List Byte → Except DecodeError Instr
  | [] | [_] => .error .truncated
  | [a, b] => k a b
  | _ :: _ :: _ :: _ => .error .trailing

/-- A request of three bytes. -/
def decodeThree (k : Byte → Byte → Byte → Except DecodeError Instr) : List Byte → Except DecodeError Instr
  | [] | [_] | [_, _] => .error .truncated
  | [a, b, d] => k a b d
  | _ :: _ :: _ :: _ :: _ => .error .trailing

/-! ## The layers -/

/-- CONSTRUCT's operands: `geom[2:0]`, then `busaddr[6:0]` (R94), below `2 ^ BUSADDR_BITS` (R22). -/
def decodeConstruct (c : Cfg) (g a : Byte) : Except DecodeError Instr :=
  if g.extractLsb' 3 5 = 0#5 ∧ a.getLsbD 7 = false ∧ (addressBits a).toNat < 2 ^ c.busAddrBits then
    .ok (.construct (g.extractLsb' 0 3) (addressBits a))
  else .error .reservedBits

/-- PRINT's operands: `row[7:0]`, `col[7:0]`, then the text (R94, R97). -/
def decodePrint : List Byte → Except DecodeError Instr
  | [] | [_] => .error .truncated
  | row :: col :: text => .ok (.print row col text)

/-- The operands of the request with selector `op` (R94, R98). -/
def decodeSelected (c : Cfg) (op : BitVec 3) (operands : List Byte) : Except DecodeError Instr :=
  match op with
  | 0#3 => decodeTwo (decodeConstruct c) operands
  | 1#3 => decodeNone .init operands
  | 2#3 => decodeNone .clear operands
  | 3#3 => decodePrint operands
  | 4#3 => decodeNone .refresh operands
  | 5#3 => decodeOne (fun b => decodeBit b .backlight) operands
  | 6#3 => decodeNone .reserved6 operands
  | 7#3 => decodeNone .reserved7 operands

/-- A host request: the selector in bits 2..0 of the first byte, then one field a byte (R94, log entry 3). -/
def decodeHost (c : Cfg) : List Byte → Except DecodeError Instr
  | [] => .error .truncated
  | sel :: operands =>
    if sel.extractLsb' 3 5 = 0#5 then decodeSelected c (sel.extractLsb' 0 3) operands
    else .error .reservedBits

/-- TRIPLE's words `ddddb00r ddddb10r ddddb00r`: they differ only in the strobe bit, idle, active, idle (R84, R87). -/
def decodeTriple (c : Cfg) (t0 t1 t2 : Byte) : Except DecodeError Instr :=
  if unusedLines c t0 ≠ 0#8 ∨ lineOf c.enMask t0 = true then .error .reservedBits
  else if t1 = t0 ||| c.enMask ∧ t2 = t0 then
    .ok (.triple (t0 &&& c.nibbleMask) (lineOf c.rsMask t0) (lineOf c.blMask t0))
  else .error .tripleMismatch

/-- The address of an address-set command `1aaaaaaa`: the opcode stands in bit 7 (R6, R93). -/
def decodeAddress (c : Cfg) (b : Byte) (k : DdramAddr → Instr) (no : Except DecodeError Instr) :
    Except DecodeError Instr :=
  if b &&& 0x80#8 = c.opcSetDdram then .ok (k (addressBits b)) else no

/-- `0011xxxx` and `0010xxxx`: the payloads of `INIT_NIBBLE[0]` and `INIT_NIBBLE[3]` (R99). -/
def decodeCtrlNibble (c : Cfg) (b : Byte) : Except DecodeError Instr :=
  if b &&& c.nibbleMask = c.initNibble 0 &&& c.nibbleMask then .ok (.init8bit (loNibble b))
  else if b &&& c.nibbleMask = c.initNibble 3 &&& c.nibbleMask then .ok (.init4bit (loNibble b))
  else .error .noSuchCommand

/-- The command values of R99 sent in a byte frame. -/
def decodeCtrlCommand (c : Cfg) (b : Byte) : Except DecodeError Instr :=
  if b = c.cmdFunctionSet then .ok .functionSet
  else if b = c.cmdEntryMode then .ok .entryMode
  else if b = c.cmdDisplayOn then .ok .displayOn
  else if b = c.cmdClearDisplay then .ok .clearDisplay
  else decodeAddress c b .setDdramAddr (.error .noSuchCommand)

/-- `ddddbe0r` (R81). -/
def decodeBusByte (c : Cfg) (b : Byte) : Except DecodeError Instr :=
  if unusedLines c b ≠ 0#8 then .error .reservedBits
  else .ok (.busByte (hiNibble b) (lineOf c.blMask b) (lineOf c.enMask b) (lineOf c.rsMask b))

/-- The decoder under a CFG: total on any request. -/
def decodeWith (c : Cfg) (r : Request) : Except DecodeError Instr :=
  match r.layer with
  | .host => decodeHost c r.bytes
  | .triple => decodeThree (decodeTriple c) r.bytes
  | .nibbleWrite => decodeTwo (fun n rs => decodeBit rs (.nibbleWrite n)) r.bytes
  | .byteWrite => decodeTwo (fun v rs => decodeBit rs (.byteWrite v)) r.bytes
  | .addressSet => decodeOne (fun b => decodeAddress c b .addressSet (.error .reservedBits)) r.bytes
  | .dataWrite => decodeOne (fun v => .ok (.dataWrite v)) r.bytes
  | .ctrlNibble => decodeOne (decodeCtrlNibble c) r.bytes
  | .ctrlCommand => decodeOne (decodeCtrlCommand c) r.bytes
  | .ctrlData => decodeOne (fun v => .ok (.data v)) r.bytes
  | .busByte => decodeOne (decodeBusByte c) r.bytes

/-- The decoder under the default CFG. -/
def decode (r : Request) : Except DecodeError Instr := decodeWith Config.cfg r

/-! ## The encoder -/

/-- One bit in a byte of its own. -/
def bitByte (b : Bool) : Byte := 0#7 ++ BitVec.ofBool b

/-- `ddddbe0r`: the payload in bits 7..4, the lines at the masks of CFG (R81). -/
def busByteWord (c : Cfg) (d : Nibble) (bl en rs : Bool) : Byte :=
  (d ++ 0#4) ||| lineBits c.blMask bl ||| lineBits c.enMask en ||| lineBits c.rsMask rs

/-- The base word of a triple (R87). -/
def tripleWord (c : Cfg) (n : Byte) (rs bl : Bool) : Byte :=
  (n &&& c.nibbleMask) ||| lineBits c.rsMask rs ||| lineBits c.blMask bl

/-- `1aaaaaaa`: the opcode with the address (R93, R99, R150). -/
def addressWord (c : Cfg) (a : DdramAddr) : Byte := c.opcSetDdram ||| (0#1 ++ a)

/-- `ddddxxxx`: the payload of `v` over four bits that are not sent (R92, R99). -/
def nibbleWord (c : Cfg) (v : Byte) (x : Nibble) : Byte := (v &&& c.nibbleMask) ||| (0#4 ++ x)

/-- The words of an instruction under a CFG. -/
def encodeWith (c : Cfg) : Instr → Request
  | .construct geom busaddr => ⟨.host, [0b000#8, 0#5 ++ geom, 0#1 ++ busaddr]⟩
  | .init => ⟨.host, [0b001#8]⟩
  | .clear => ⟨.host, [0b010#8]⟩
  | .print row col text => ⟨.host, 0b011#8 :: row :: col :: text⟩
  | .refresh => ⟨.host, [0b100#8]⟩
  | .backlight on => ⟨.host, [0b101#8, bitByte on]⟩
  | .reserved6 => ⟨.host, [0b110#8]⟩
  | .reserved7 => ⟨.host, [0b111#8]⟩
  | .triple n rs bl => ⟨.triple, [tripleWord c n rs bl, tripleWord c n rs bl ||| c.enMask, tripleWord c n rs bl]⟩
  | .nibbleWrite n rs => ⟨.nibbleWrite, [n, bitByte rs]⟩
  | .byteWrite v rs => ⟨.byteWrite, [v, bitByte rs]⟩
  | .addressSet a => ⟨.addressSet, [addressWord c a]⟩
  | .dataWrite v => ⟨.dataWrite, [v]⟩
  | .init8bit x => ⟨.ctrlNibble, [nibbleWord c (c.initNibble 0) x]⟩
  | .init4bit x => ⟨.ctrlNibble, [nibbleWord c (c.initNibble 3) x]⟩
  | .functionSet => ⟨.ctrlCommand, [c.cmdFunctionSet]⟩
  | .entryMode => ⟨.ctrlCommand, [c.cmdEntryMode]⟩
  | .displayOn => ⟨.ctrlCommand, [c.cmdDisplayOn]⟩
  | .clearDisplay => ⟨.ctrlCommand, [c.cmdClearDisplay]⟩
  | .setDdramAddr a => ⟨.ctrlCommand, [addressWord c a]⟩
  | .data v => ⟨.ctrlData, [v]⟩
  | .busByte d bl en rs => ⟨.busByte, [busByteWord c d bl en rs]⟩

/-- The words of an instruction under the default CFG. -/
def encode (i : Instr) : Request := encodeWith Config.cfg i

/-! ## Words numbered as the opcode table numbers them -/

/-- The layer a bare table word is read in (log entry 10). The table's rows of different layers overlap, and
a word does not say its layer: a word wider than a byte is a TRIPLE, a value below 8 a host selector, then the
row with the most fixed bits wins. -/
def tableLayer (nbits w : Nat) : Layer :=
  if 8 < nbits then .triple
  else if w < 8 then .host
  else if w = 0x28 ∨ w = 0x0C ∨ 0x80 ≤ w then .ctrlCommand
  else if w / 16 = 2 ∨ w / 16 = 3 then .ctrlNibble
  else if w / 2 % 2 = 0 then .busByte
  else .ctrlData

/-- How many bytes the instruction has; PRINT with the empty text. -/
def tableLength (l : Layer) (w : Nat) : Nat :=
  match l with
  | .host =>
    match w % 8 with
    | 0 => 3
    | 3 => 3
    | 5 => 2
    | _ => 1
  | .triple => 3
  | .nibbleWrite | .byteWrite => 2
  | .addressSet | .dataWrite | .ctrlNibble | .ctrlCommand | .ctrlData | .busByte => 1

/-- The first `n` bytes of a number, the least significant first. -/
def bytesOf : Nat → Nat → List Byte
  | 0, _ => []
  | n + 1, w => BitVec.ofNat 8 w :: bytesOf n (w / 256)

/-- The request whose first `nbits` bits are `w` and whose other bits are zero. -/
def tableRequest (nbits w : Nat) : Request :=
  let v := w % 2 ^ nbits
  let l := tableLayer nbits v
  ⟨l, bytesOf (tableLength l v) v⟩

/-- The instruction the decoder reads from a table word. -/
def decodeTableWord (nbits w : Nat) : Option Instr :=
  match decode (tableRequest nbits w) with
  | .ok i => some i
  | .error _ => none

end Sys2Proof
end

