-- ==== Sys2Proof/Machine/State.lean ====
section
/-! DEFINITION. The state of one LCDF instance (R20, R31), the events it emits (R9), the outcomes it reports
(R190), and its state before the first CONSTRUCT (R35, R215). -/

namespace Sys2Proof.Machine

/-- What LCDF sends to the transport and to the delay primitive (R9, R62). -/
inductive Event where
  /-- `Begin(a)`: the transport's `beginTransaction(address)`. -/
  | beginTx (a : BusAddr)
  /-- `Write(b)`: the transport's `write(byte)`. -/
  | write (b : Byte)
  /-- `End`: the transport's `endTransaction()`. -/
  | endTx
  /-- `Wait(ms)`: the delay primitive's `wait(milliseconds)`. -/
  | wait (ms : Nat)
  deriving DecidableEq, Repr

/-- The buffer space (R50): (offset, byte) pairs, offsets rising, no byte equal to what an unlisted offset
reads as, which is `BLANK`, the reset contents (R24, R35, log entry 9). -/
abbrev Memory := List Host.Cell

/-- The Driver State of the source (R20). -/
structure Driver where
  /-- `GEOM` (R21). -/
  geom : Geom
  /-- `BUSADDR` (R22). -/
  busAddr : BusAddr
  /-- `BL` (R23). -/
  bl : Bool
  /-- `BUF` (R24). -/
  buf : Memory
  deriving DecidableEq, Repr

/-- `LIFE` (R25). GEOM, BUSADDR, BL and BUF hold a value in READY and in no other lifecycle state, so READY
carries them (R25, R35, log entry 8). -/
inductive Life where
  | unconstructed
  | ready (d : Driver)
  | faulted
  deriving DecidableEq, Repr

/-- The three values of `LIFE` alone, as the status read gives them (R29). -/
inductive LifeName where
  | UNCONSTRUCTED | READY | FAULTED
  deriving DecidableEq, Repr

/-- The reasons of R195 for turning a request away. -/
inductive Reason where
  | notReady
  | reservedOp
  deriving DecidableEq, Repr

/-- What LCDF reports for a request (R190, R231), or what a pure function returns to its caller (R110). -/
inductive Reply where
  | ok
  /-- `fault(code)` with the offending operand, the `info` of the raise (R192). -/
  | fault (code : Nat) (info : BitVec 3)
  | refused (r : Reason)
  /-- The bus bytes a pure function returns (log entry 6). -/
  | value (bytes : List Byte)
  deriving DecidableEq, Repr

/-- The machine: the spec's registers and TRACE, then the model's own two ports (log entries 2 and 5). -/
structure State where
  /-- `LIFE`, and in READY the Driver State. -/
  life : Life
  /-- `FAULTCODE` (R27). -/
  faultCode : Nat
  /-- `TRACE` (R31), oldest event first. -/
  trace : List Event
  /-- The requests the host has yet to issue, next first (R230). The model's own. -/
  port : List Request
  /-- The outcome of the last request (R231). The model's own: no rule reads it. -/
  reply : Option Reply
  deriving DecidableEq, Repr

/-- Why the machine stops. -/
inductive Fault where
  /-- Raised by REFRESH and PRINT on an access to an offset outside the buffer space of `size` cells, which R50 says
  does not exist. Safe: R184 says no access is out of range, and none is. -/
  | bufferRange (size : Nat)
  deriving DecidableEq, Repr

/-- Why the model gives a step no meaning. -/
inductive Refusal where
  /-- Raised by an arm of `exec` that has no meaning yet; no arm is one. Safe. -/
  | notModelled (mnemonic : String)
  /-- Raised by `step` on bytes that encode no request (log entry 3). Safe: a host request is a record whose
  fields have their widths (R94), so the host has no such request. -/
  | malformedRequest (why : DecodeError)
  /-- Raised by `execWith` and `stepWith` on a CFG that R6 calls ill-formed; never by `exec` and `step`, whose CFG is
  the default. Safe: R6 says that a model checks its CFG before it runs anything. -/
  | illFormedCfg
  deriving DecidableEq, Repr

/-- How a meaning ends. -/
abbrev Result := Host.Outcome State Fault Refusal

/-- Before the first CONSTRUCT: `LIFE = UNCONSTRUCTED`, `FAULTCODE = 0`, `TRACE` empty, nothing else with a
value (R35, R215). -/
def State.reset : State :=
  { life := .unconstructed, faultCode := 0, trace := [], port := [], reply := none }

end Sys2Proof.Machine
end

