-- ==== Sys2Proof/Machine/Operands.lean ====
section
/-! DEFINITION. Operand forms: geometry codes, texts, buffer offsets, payloads, command bytes (R91 to R97, R184), the
Physical Address Map and the translation (R58, R61), and the well-formedness of a CFG (R6). -/

namespace Sys2Proof.Machine

/-! ## Geometry -/

/-- The codes below `NGEOM` select a geometry, with the default 0 to 5; the others are not geometries (R95, R98). -/
def geomOfCode (c : Cfg) (code : BitVec 3) : Option Geom :=
  if code.toNat < c.nGeom then Geom.all[code.toNat]? else none

/-- A geometry's code (R5 `GEOMTAB`). -/
def geomCode (g : Geom) : BitVec 3 :=
  match g with
  | .g8x1 => 0#3
  | .g8x2 => 1#3
  | .g16x2 => 2#3
  | .g16x4 => 3#3
  | .g20x2 => 4#3
  | .g20x4 => 5#3

/-- `COLS` (R8). -/
def cols (c : Cfg) (g : Geom) : Nat := (c.geomTab g).cols

/-- `ROWS` (R8). -/
def rows (c : Cfg) (g : Geom) : Nat := (c.geomTab g).rows

/-- `NCELLS = COLS*ROWS` (R8). -/
def nCells (c : Cfg) (g : Geom) : Nat := cols c g * rows c g

/-! ## The display buffer -/

/-- The offset of the cell of logical row `row`, column `col` (R51). -/
def cellOffset (c : Cfg) (g : Geom) (row col : Nat) : Nat := row * cols c g + col

/-- Both tests of R172 pass. -/
def inGrid (c : Cfg) (g : Geom) (row col : Byte) : Bool :=
  decide (row.toNat < rows c g) && decide (col.toNat < cols c g)

/-- The effective part of a text (R97): its longest initial part without the terminator. -/
def effectiveText (c : Cfg) (text : List Byte) : List Byte := text.takeWhile (· != c.terminator)

/-! ## Payloads and command bytes -/

/-- Bits 7..4 of a controller value, in place (R91). -/
def hiPayload (c : Cfg) (v : Byte) : Byte := v &&& c.nibbleMask

/-- Bits 3..0 of a controller value, moved to bits 7..4 (R91). -/
def loPayload (c : Cfg) (v : Byte) : Byte := (v <<< 4) &&& c.nibbleMask

/-- The address-set command byte (R93). -/
def addressCommand (c : Cfg) (a : DdramAddr) : Byte := c.opcSetDdram ||| a.zeroExtend 8

/-! ## The Physical Address Map -/

/-- One pair of the map: `span` buffer cells sent after one address-set to `base` (R12). -/
structure Segment where
  base : DdramAddr
  span : Nat
  deriving DecidableEq, Repr

/-- `ROWBASE[s mod 2]` (R5). -/
def rowBase (c : Cfg) (s : Nat) : DdramAddr := if s % 2 = 0 then c.rowBase0 else c.rowBase1

/-- The controller address of the first cell of logical row `s`, as a natural number (R58). -/
def segmentBase (c : Cfg) (g : Geom) (s : Nat) : Nat := (rowBase c s).toNat + s / 2 * cols c g

/-- `MAP(g)` (R58), in logical row order (D4, log entry 17). -/
def addressMap (c : Cfg) (g : Geom) : List Segment :=
  (List.range (rows c g)).map fun s => ⟨BitVec.ofNat 7 (segmentBase c g s), cols c g⟩

/-- `XLATE(g, r, c)` (R61). -/
def xlate (c : Cfg) (g : Geom) (r k : Nat) : Nat := segmentBase c g r + k

/-- `XLATE_OFF(g, i)` (R61). -/
def xlateOffset (c : Cfg) (g : Geom) (i : Nat) : Nat := xlate c g (i / cols c g) (i % cols c g)

/-! ## Well-formedness of CFG (R6) -/

/-- Exactly one bit is set. -/
abbrev oneBit (m : Byte) : Prop := ∃ k ∈ List.range 8, m = 1#8 <<< k

/-- The four control masks are single bits, pairwise different, outside the payload. -/
abbrev MasksWellFormed (c : Cfg) : Prop :=
  c.nibbleMask = 0xF0#8 ∧
  (∀ m ∈ [c.rsMask, c.rwMask, c.enMask, c.blMask], oneBit m ∧ m &&& c.nibbleMask = 0#8) ∧
  [c.rsMask, c.rwMask, c.enMask, c.blMask].Nodup

/-- The spans sum to the cell count, every segment ends by 0x80, and no two segments share an address. -/
abbrev MapWellFormed (c : Cfg) (g : Geom) : Prop :=
  ((addressMap c g).map (·.span)).sum = cols c g * rows c g ∧
  (∀ s ∈ List.range (rows c g), segmentBase c g s + cols c g ≤ 0x80) ∧
  ∀ s ∈ List.range (rows c g), ∀ t ∈ List.range (rows c g), s < t →
    segmentBase c g s + cols c g ≤ segmentBase c g t ∨ segmentBase c g t + cols c g ≤ segmentBase c g s

/-- What a model must check of a CFG before it runs anything (R6). -/
abbrev CfgWellFormed (c : Cfg) : Prop :=
  MasksWellFormed c ∧ (∀ g ∈ Geom.all, MapWellFormed c g) ∧ c.opcSetDdram &&& 0x7F#8 = 0#8

end Sys2Proof.Machine
end

