-- ==== Sys2Proof/Machine/Flags.lean ====
section
/-! DEFINITION. The control bits of a bus byte and the status of the machine. LCDF has no condition codes (R28); its one
flag is `BL`, its one status value `FAULTCODE` beside `LIFE` (R27, R29). -/

namespace Sys2Proof.Machine

/-- `rs = 1 ? RS_MASK : 0x00` (R110). -/
def rsBits (c : Cfg) (rs : Bool) : Byte := if rs then c.rsMask else 0#8

/-- `bl = 1 ? BL_MASK : 0x00` (R110). -/
def blBits (c : Cfg) (bl : Bool) : Byte := if bl then c.blMask else 0#8

/-- The strobe bit: `EN_MASK` while active, nothing while idle (R84). -/
def enBits (c : Cfg) (en : Bool) : Byte := if en then c.enMask else 0#8

/-- `LIFE` without what READY carries. -/
def lifeName (l : Life) : LifeName :=
  match l with
  | .unconstructed => .UNCONSTRUCTED
  | .ready _ => .READY
  | .faulted => .FAULTED

/-- The Driver State, where it holds a value (R25). -/
def driverOf (l : Life) : Option Driver :=
  match l with
  | .ready d => some d
  | .unconstructed | .faulted => none

/-- The status read the spec allows: `LIFE` and `FAULTCODE`, with no side effect (R29, R186). -/
def status (s : State) : LifeName × Nat := (lifeName s.life, s.faultCode)

end Sys2Proof.Machine
end

