-- ==== Sys2Proof/Machine/Ops.lean ====
section
/-! DEFINITION. The named operations over memory and registers: the buffer space (R50), TRACE (R8, R31), the reports to
the host (R190), fault entry and return (R193, R194), and the READY check (R195, R199). -/

namespace Sys2Proof.Machine

/-! ## The buffer space -/

/-- The byte at an offset; an unlisted offset reads as `BLANK` (R24, log entry 9). -/
def Memory.read (c : Cfg) : Memory → Nat → Byte
  | [], _ => c.blank
  | (k, v) :: rest, a => if k = a then v else Memory.read c rest a

/-- Lists a byte at its place in the rising order. -/
def Memory.place (a : Nat) (v : Byte) : Memory → Memory
  | [] => [(a, v)]
  | (k, w) :: rest =>
    if a < k then (a, v) :: (k, w) :: rest
    else if a = k then (a, v) :: rest
    else (k, w) :: Memory.place a v rest

/-- Takes an offset off the list. -/
def Memory.drop (a : Nat) (m : Memory) : Memory := m.filter fun x => x.1 != a

/-- Writes a byte; writing `BLANK` takes the offset off the list. -/
def Memory.write (c : Cfg) (m : Memory) (a : Nat) (v : Byte) : Memory :=
  if v = c.blank then Memory.drop a m else Memory.place a v m

/-- Every cell `BLANK`. -/
def Memory.blank : Memory := []

/-- The canonical form: offsets strictly rising, no entry equal to what an unlisted offset reads as. -/
abbrev Memory.wf (c : Cfg) (m : Memory) : Prop :=
  m.Pairwise (fun x y => x.1 < y.1) ∧ ∀ x ∈ m, x.2 ≠ c.blank

/-- Every listed offset is one of the geometry's cells. -/
abbrev Memory.within (n : Nat) (m : Memory) : Prop := ∀ x ∈ m, x.1 < n

/-- `MemRead(i, 1)` (R8, R50): no answer outside the buffer space. -/
def loadCell (c : Cfg) (d : Driver) (i : Nat) : Option Byte :=
  if i < nCells c d.geom then some (Memory.read c d.buf i) else none

/-- `MemWrite(i, 1, v)` (R8, R50): no answer outside the buffer space. -/
def storeCell (c : Cfg) (g : Geom) (m : Memory) (i : Nat) (v : Byte) : Option Memory :=
  if i < nCells c g then some (Memory.write c m i v) else none

/-! ## TRACE, LIFE, FAULTCODE and the reply -/

/-- `Emit` of a list of events (R8): they follow what `TRACE` holds. -/
def emit (evs : List Event) (s : State) : State := { s with trace := s.trace ++ evs }

/-- Reports the outcome of a request (R190, R231). -/
def answer (r : Reply) (s : State) : State := { s with reply := some r }

/-- Writes `GEOM`, `BUSADDR`, `BL`, `BUF` of a READY instance. -/
def setDriver (d : Driver) (s : State) : State := { s with life := .ready d }

/-- Writes `FAULTCODE`. -/
def setFaultCode (code : Nat) (s : State) : State := { s with faultCode := code }

/-- Ends an operation with outcome `ok`. -/
def done (s : State) : Result := .next (answer .ok s)

/-- Ends a request with outcome `refused(reason)`: nothing changes and nothing is emitted (R190, R195). The
machine goes on with the host's next request, so this is a next state (log entry 5). -/
def turnAway (why : Reason) (s : State) : Result := .next (answer (.refused why) s)

/-- Fault entry (R193): `FAULTCODE <- code`, `LIFE <- FAULTED`, the Driver State loses its value, no event, and the
outcome `fault(code)` carries `info` to the host. There is no vector and no saved state. -/
def raiseFault (code : Nat) (info : BitVec 3) (s : State) : Result :=
  .next (answer (.fault code info) { s with life := .faulted, faultCode := code })

/-- Fault return, and the end of every valid CONSTRUCT (R130, R194): `FAULTCODE <- 0`, `LIFE <- READY` with the new
Driver State. -/
def becomeReady (d : Driver) (s : State) : Result := done (setDriver d (setFaultCode 0 s))

/-- The second check of R199: only a READY instance runs the operation. -/
def whenReady (s : State) (op : Driver → Result) : Result :=
  match s.life with
  | .ready d => op d
  | .unconstructed | .faulted => turnAway .notReady s

/-- The check of R6, made before anything runs: under an ill-formed CFG there is no operation. -/
def checked (c : Cfg) (r : Result) : Result := if CfgWellFormed c then r else .refused .illFormedCfg

/-- An operation that emits a list of events and writes no register. -/
def sends (s : State) (frame : Driver → List Event) : Result :=
  whenReady s fun d => done (emit (frame d) s)

end Sys2Proof.Machine
end

