-- ==== Sys2Proof/Machine/Buffer.lean ====
section
/-! DEFINITION. CLEAR, PRINT and BACKLIGHT (R170 to R177): they write LCDF's own state and emit nothing. -/

namespace Sys2Proof.Machine

/-- The loop of PRINT (R171) from column `col` of row `row`: it stops at the row's end, at the terminator or at the end
of the text; no answer if a cell lies outside the buffer space. -/
def printRun (c : Cfg) (g : Geom) (row : Nat) : Nat → List Byte → Memory → Option Memory
  | _, [], m => some m
  | col, b :: rest, m =>
    if col < cols c g ∧ b ≠ c.terminator then do
      let m' ← storeCell c g m (cellOffset c g row col) b
      printRun c g row (col + 1) rest m'
    else some m

/-- CLEAR (R170). -/
def clearOp (s : State) : Result := whenReady s fun d => done (setDriver { d with buf := Memory.blank } s)

/-- PRINT (R171): outside the grid the whole operation changes nothing and ends `ok` (R172). -/
def printOp (c : Cfg) (row col : Byte) (text : List Byte) (s : State) : Result :=
  whenReady s fun d =>
    if inGrid c d.geom row col then
      match printRun c d.geom row.toNat col.toNat text d.buf with
      | some m => done (setDriver { d with buf := m } s)
      | none => .fault (.bufferRange (nCells c d.geom))
    else done s

/-- BACKLIGHT (R176): `BL <- on`; the line itself changes at the next frame (R225). -/
def backlightOp (on : Bool) (s : State) : Result := whenReady s fun d => done (setDriver { d with bl := on } s)

/-- CLEAR (R170). -/
def execClear (s : State) : Result := clearOp s

/-- PRINT (R171). -/
def execPrint (row col : Byte) (text : List Byte) (s : State) : Result := printOp Config.cfg row col text s

/-- BACKLIGHT (R176). -/
def execBacklight (on : Bool) (s : State) : Result := backlightOp on s

end Sys2Proof.Machine
end

