-- ==== Sys2Proof/Machine/Framer.lean ====
section
/-! DEFINITION. The framer (R110 to R116): TRIPLE, NIBBLE_WRITE, BYTE_WRITE, and the bus byte (R81). -/

namespace Sys2Proof.Machine

/-- The base of a triple (R87). -/
def baseByte (c : Cfg) (n : Byte) (rs bl : Bool) : Byte := (n &&& c.nibbleMask) ||| rsBits c rs ||| blBits c bl

/-- `TRIPLE(n, rs, bl)` (R110). -/
def tripleBytes (c : Cfg) (n : Byte) (rs bl : Bool) : List Byte :=
  let base := baseByte c n rs bl
  [base, base ||| c.enMask, base]

/-- One transaction to the bus address with the given bus bytes (R9). -/
def transaction (a : BusAddr) (bytes : List Byte) : List Event := .beginTx a :: (bytes.map .write ++ [.endTx])

/-- Format NIBFRAME (R88, R111): `BL` is read once, when the frame is built (R114). -/
def nibbleFrame (c : Cfg) (n : Byte) (rs : Bool) (d : Driver) : List Event :=
  transaction d.busAddr (tripleBytes c n rs d.bl)

/-- Format BYTEFRAME (R89, R112): the high nibble's triple, then the low nibble's, in one transaction. -/
def byteFrame (c : Cfg) (v : Byte) (rs : Bool) (d : Driver) : List Event :=
  transaction d.busAddr (tripleBytes c (hiPayload c v) rs d.bl ++ tripleBytes c (loPayload c v) rs d.bl)

/-- BUSBYTE assembled from its fields (R81), with the mask positions of CFG. -/
def assembleBusByte (c : Cfg) (d : Nibble) (bl en rs : Bool) : Byte :=
  ((d ++ 0#4 : Byte) &&& c.nibbleMask) ||| blBits c bl ||| enBits c en ||| rsBits c rs

/-! The operations under any CFG, and after them the meanings, which are those under the default CFG (log entry 1). -/

/-- TRIPLE (R110): reads no state, writes no state, emits nothing, cannot fault; its result is the three bytes. -/
def tripleOp (c : Cfg) (n : Byte) (rs bl : Bool) (s : State) : Result :=
  .next (answer (.value (tripleBytes c n rs bl)) s)

/-- NIBBLE_WRITE (R111). -/
def nibbleWriteOp (c : Cfg) (n : Byte) (rs : Bool) (s : State) : Result := sends s (nibbleFrame c n rs)

/-- BYTE_WRITE (R112). -/
def byteWriteOp (c : Cfg) (v : Byte) (rs : Bool) (s : State) : Result := sends s (byteFrame c v rs)

/-- BUSBYTE (R81): the byte its fields make. Nothing is emitted, since a `Write` outside a transaction LCDF opened
does not occur (R62, log entry 6). -/
def busByteOp (c : Cfg) (d : Nibble) (bl en rs : Bool) (s : State) : Result :=
  .next (answer (.value [assembleBusByte c d bl en rs]) s)

/-- TRIPLE (R110). -/
def execTriple (n : Byte) (rs bl : Bool) (s : State) : Result := tripleOp Config.cfg n rs bl s

/-- NIBBLE_WRITE (R111). -/
def execNibbleWrite (n : Byte) (rs : Bool) (s : State) : Result := nibbleWriteOp Config.cfg n rs s

/-- BYTE_WRITE (R112). -/
def execByteWrite (v : Byte) (rs : Bool) (s : State) : Result := byteWriteOp Config.cfg v rs s

/-- BUSBYTE (R81). -/
def execBusByte (d : Nibble) (bl en rs : Bool) (s : State) : Result := busByteOp Config.cfg d bl en rs s

end Sys2Proof.Machine
end

