-- ==== Sys2Proof/Machine/Translator.lean ====
section
/-! DEFINITION. The address translator (R150 to R159): ADDRESS_SET, DATA_WRITE, REFRESH. -/

namespace Sys2Proof.Machine

/-- `ADDRESS_SET(a)` (R150). -/
def addressFrame (c : Cfg) (a : DdramAddr) (d : Driver) : List Event := byteFrame c (addressCommand c a) false d

/-- `DATA_WRITE(c)` (R151). -/
def dataFrame (c : Cfg) (v : Byte) (d : Driver) : List Event := byteFrame c v true d

/-- `n` data writes of the cells from offset `off` on, in increasing offset (R152). -/
def dataRun (c : Cfg) (d : Driver) : Nat → Nat → Option (List Event)
  | _, 0 => some []
  | off, n + 1 => do
    let v ← loadCell c d off
    let later ← dataRun c d (off + 1) n
    return dataFrame c v d ++ later

/-- The segments of a map, the first at buffer offset `off`: for each an address-set, then its cells (R152). -/
def segmentRun (c : Cfg) (d : Driver) : Nat → List Segment → Option (List Event)
  | _, [] => some []
  | off, sg :: rest => do
    let cells ← dataRun c d off sg.span
    let later ← segmentRun c d (off + sg.span) rest
    return addressFrame c sg.base d ++ cells ++ later

/-- The events of REFRESH (R152); no answer if a cell lies outside the buffer space. -/
def refreshEvents (c : Cfg) (d : Driver) : Option (List Event) := segmentRun c d 0 (addressMap c d.geom)

/-- REFRESH (R152): the whole buffer, every time (R156); no register is written. -/
def refreshOp (c : Cfg) (s : State) : Result :=
  whenReady s fun d =>
    match refreshEvents c d with
    | some evs => done (emit evs s)
    | none => .fault (.bufferRange (nCells c d.geom))

/-- ADDRESS_SET (R150). -/
def addressSetOp (c : Cfg) (a : DdramAddr) (s : State) : Result := sends s (addressFrame c a)

/-- DATA_WRITE (R151). -/
def dataWriteOp (c : Cfg) (v : Byte) (s : State) : Result := sends s (dataFrame c v)

/-- ADDRESS_SET (R150). -/
def execAddressSet (a : DdramAddr) (s : State) : Result := addressSetOp Config.cfg a s

/-- DATA_WRITE (R151). -/
def execDataWrite (v : Byte) (s : State) : Result := dataWriteOp Config.cfg v s

/-- REFRESH (R152). -/
def execRefresh (s : State) : Result := refreshOp Config.cfg s

end Sys2Proof.Machine
end

