-- ==== Sys2Proof/Machine/Ctrl.lean ====
section
/-! DEFINITION. The controller values LCDF emits (R99), each sent by itself in the frame and with the RS its row gives.
The waits of the script belong to INITIALIZE (R139), so none follows here (log entry 15). -/

namespace Sys2Proof.Machine

/-- A value of the pattern `ddddxxxx`: the payload of `v` with `x` in the bits a nibble frame does not send (R92). -/
def withLowBits (c : Cfg) (v : Byte) (x : Nibble) : Byte := (v &&& c.nibbleMask) ||| x.zeroExtend 8

/-- INIT_8BIT (R99). -/
def init8bitOp (c : Cfg) (x : Nibble) (s : State) : Result := sends s (nibbleFrame c (withLowBits c (c.initNibble 0) x) false)

/-- INIT_4BIT (R99). -/
def init4bitOp (c : Cfg) (x : Nibble) (s : State) : Result := sends s (nibbleFrame c (withLowBits c (c.initNibble 3) x) false)

/-- FUNCTION_SET (R99). -/
def functionSetOp (c : Cfg) (s : State) : Result := sends s (byteFrame c c.cmdFunctionSet false)

/-- ENTRY_MODE (R99). -/
def entryModeOp (c : Cfg) (s : State) : Result := sends s (byteFrame c c.cmdEntryMode false)

/-- DISPLAY_ON (R99). -/
def displayOnOp (c : Cfg) (s : State) : Result := sends s (byteFrame c c.cmdDisplayOn false)

/-- CLEAR_DISPLAY (R99): the controller's own clear, not CLEAR (R170). -/
def clearDisplayOp (c : Cfg) (s : State) : Result := sends s (byteFrame c c.cmdClearDisplay false)

/-- SET_DDRAM_ADDR (R99). -/
def setDdramAddrOp (c : Cfg) (a : DdramAddr) (s : State) : Result := sends s (byteFrame c (addressCommand c a) false)

/-- DATA (R99). -/
def dataOp (c : Cfg) (v : Byte) (s : State) : Result := sends s (byteFrame c v true)

/-- INIT_8BIT (R99). -/
def execInit8bit (x : Nibble) (s : State) : Result := init8bitOp Config.cfg x s

/-- INIT_4BIT (R99). -/
def execInit4bit (x : Nibble) (s : State) : Result := init4bitOp Config.cfg x s

/-- FUNCTION_SET (R99). -/
def execFunctionSet (s : State) : Result := functionSetOp Config.cfg s

/-- ENTRY_MODE (R99). -/
def execEntryMode (s : State) : Result := entryModeOp Config.cfg s

/-- DISPLAY_ON (R99). -/
def execDisplayOn (s : State) : Result := displayOnOp Config.cfg s

/-- CLEAR_DISPLAY (R99). -/
def execClearDisplay (s : State) : Result := clearDisplayOp Config.cfg s

/-- SET_DDRAM_ADDR (R99). -/
def execSetDdramAddr (a : DdramAddr) (s : State) : Result := setDdramAddrOp Config.cfg a s

/-- DATA (R99). -/
def execData (v : Byte) (s : State) : Result := dataOp Config.cfg v s

end Sys2Proof.Machine
end

