-- ==== Sys2Proof/Machine/Lifecycle.lean ====
section
/-! DEFINITION. CONSTRUCT, the reset of LCDF (R130 to R132, R215), INITIALIZE, the controller's fixed script (R133 to
R140), and the reserved selectors (R98). -/

namespace Sys2Proof.Machine

/-- The Driver State after a successful CONSTRUCT (R35): backlight off, every cell blank. -/
def freshDriver (g : Geom) (a : BusAddr) : Driver := { geom := g, busAddr := a, bl := false, buf := Memory.blank }

/-- CONSTRUCT (R130): accepted in every lifecycle state, a full reset that keeps TRACE (R132); a code outside the
set faults before anything is written (R193). -/
def constructOp (c : Cfg) (code : BitVec 3) (a : BusAddr) (s : State) : Result :=
  match geomOfCode c code with
  | some g => becomeReady (freshDriver g a) s
  | none => raiseFault c.faultUnsupportedGeometry code s

/-- One nibble write of the script and the wait after it (R133). -/
def nibbleStep (c : Cfg) (d : Driver) (k : Fin 4) : List Event :=
  nibbleFrame c (c.initNibble k) false d ++ [.wait (c.tInitNibbleMs k)]

/-- One command write of the script and the wait after it (R133). -/
def commandStep (c : Cfg) (d : Driver) (cmd : Byte) (k : Fin 4) : List Event :=
  byteFrame c cmd false d ++ [.wait (c.tCmdMs k)]

/-- The script of INITIALIZE (R133). -/
def initEvents (c : Cfg) (d : Driver) : List Event :=
  [.wait c.tPowerOnMs]
    ++ nibbleStep c d 0 ++ nibbleStep c d 1 ++ nibbleStep c d 2 ++ nibbleStep c d 3
    ++ commandStep c d c.cmdFunctionSet 0 ++ commandStep c d c.cmdEntryMode 1
    ++ commandStep c d c.cmdDisplayOn 2 ++ commandStep c d c.cmdClearDisplay 3

/-- INITIALIZE (R133): writes no LCDF register. -/
def initOp (c : Cfg) (s : State) : Result := sends s (initEvents c)

/-- CONSTRUCT (R130). -/
def execConstruct (code : BitVec 3) (a : BusAddr) (s : State) : Result := constructOp Config.cfg code a s

/-- INITIALIZE (R133). -/
def execInit (s : State) : Result := initOp Config.cfg s

/-- Selector 6 (R98): the first check of R199, so it does not look at `LIFE`. -/
def execReserved6 (s : State) : Result := turnAway .reservedOp s

/-- Selector 7 (R98). -/
def execReserved7 (s : State) : Result := turnAway .reservedOp s

end Sys2Proof.Machine
end

