-- ==== Sys2Proof/Machine/Dispatch.lean ====
section
/-! DEFINITION. One arm per row of the opcode table. -/

namespace Sys2Proof.Machine

/-- The meaning of an instruction. -/
def exec (i : Instr) (s : State) : Host.Outcome State Fault Refusal :=
  match i with
  | .construct geom busaddr => Sys2Proof.Machine.execConstruct geom busaddr s
  | .init => Sys2Proof.Machine.execInit s
  | .clear => Sys2Proof.Machine.execClear s
  | .print row col text => Sys2Proof.Machine.execPrint row col text s
  | .refresh => Sys2Proof.Machine.execRefresh s
  | .backlight on => Sys2Proof.Machine.execBacklight on s
  | .reserved6 => Sys2Proof.Machine.execReserved6 s
  | .reserved7 => Sys2Proof.Machine.execReserved7 s
  | .triple n rs bl => Sys2Proof.Machine.execTriple n rs bl s
  | .nibbleWrite n rs => Sys2Proof.Machine.execNibbleWrite n rs s
  | .byteWrite v rs => Sys2Proof.Machine.execByteWrite v rs s
  | .addressSet a => Sys2Proof.Machine.execAddressSet a s
  | .dataWrite v => Sys2Proof.Machine.execDataWrite v s
  | .init8bit x => Sys2Proof.Machine.execInit8bit x s
  | .init4bit x => Sys2Proof.Machine.execInit4bit x s
  | .functionSet => Sys2Proof.Machine.execFunctionSet s
  | .entryMode => Sys2Proof.Machine.execEntryMode s
  | .displayOn => Sys2Proof.Machine.execDisplayOn s
  | .clearDisplay => Sys2Proof.Machine.execClearDisplay s
  | .setDdramAddr a => Sys2Proof.Machine.execSetDdramAddr a s
  | .data v => Sys2Proof.Machine.execData v s
  | .busByte d bl en rs => Sys2Proof.Machine.execBusByte d bl en rs s

end Sys2Proof.Machine
end

