-- ==== Sys2Proof/Machine/Fetch.lean ====
section
/-! DEFINITION. Taking the host's next request off the port (R180 (a), log entry 2). LCDF has no program counter and no
instruction memory (R26). -/

namespace Sys2Proof.Machine

/-- What the port holds next. -/
inductive Fetched where
  /-- No request: LCDF waits for the next host operation (R35). -/
  | idle
  /-- An instruction, and the state with its request taken off the port. -/
  | run (i : Instr) (s : State)
  /-- Bytes that encode no request. -/
  | malformed (why : DecodeError)
  deriving DecidableEq, Repr

/-- Takes and decodes the next request, under a CFG. -/
def fetchWith (c : Cfg) (s : State) : Fetched :=
  match s.port with
  | [] => .idle
  | r :: rest =>
    match decodeWith c r with
    | .ok i => .run i { s with port := rest }
    | .error why => .malformed why

/-- Takes and decodes the next request, under the default CFG. -/
def fetch (s : State) : Fetched := fetchWith Config.cfg s

/-- The request placed where `fetch` looks next. -/
def placeRequest (r : Request) (s : State) : State := { s with port := r :: s.port }

end Sys2Proof.Machine
end

