-- ==== Sys2Proof/Machine/Step.lean ====
section
/-! DEFINITION. One step: the host's next request, run to its end (R10, D16). -/

namespace Sys2Proof.Machine

/-- With no request LCDF waits (R35); otherwise it runs the request whole. -/
def step (s : State) : Host.Outcome State Fault Refusal :=
  match fetch s with
  | .idle => .next s
  | .run i s' => exec i s'
  | .malformed why => .refused (.malformedRequest why)

/-- The state with a table word placed as the host's next request (log entries 2 and 10). -/
def State.withFetchWord (s : State) (nbits w : Nat) : State := placeRequest (tableRequest nbits w) s

end Sys2Proof.Machine
end

