-- ==== Sys2Proof/Machine/Parametric.lean ====
section
/-! DEFINITION. The machine with CFG as an argument, as R5 and R30 have it: CFG is a parameter of the step function and no
part of State. `execWith` and `stepWith` check their CFG before they run anything (R6). `exec` and `step`, whose form
leaves no place for an argument, are these under the default CFG (log entry 1), which passes the check
(Laws/Parametric.lean). -/

namespace Sys2Proof.Machine

/-- The meaning of an instruction under a CFG, as the rules give it; the CFG is not checked here. -/
def meaningWith (c : Cfg) (i : Instr) (s : State) : Result :=
  match i with
  | .construct geom busaddr => constructOp c geom busaddr s
  | .init => initOp c s
  | .clear => clearOp s
  | .print row col text => printOp c row col text s
  | .refresh => refreshOp c s
  | .backlight on => backlightOp on s
  | .reserved6 => turnAway .reservedOp s
  | .reserved7 => turnAway .reservedOp s
  | .triple n rs bl => tripleOp c n rs bl s
  | .nibbleWrite n rs => nibbleWriteOp c n rs s
  | .byteWrite v rs => byteWriteOp c v rs s
  | .addressSet a => addressSetOp c a s
  | .dataWrite v => dataWriteOp c v s
  | .init8bit x => init8bitOp c x s
  | .init4bit x => init4bitOp c x s
  | .functionSet => functionSetOp c s
  | .entryMode => entryModeOp c s
  | .displayOn => displayOnOp c s
  | .clearDisplay => clearDisplayOp c s
  | .setDdramAddr a => setDdramAddrOp c a s
  | .data v => dataOp c v s
  | .busByte d bl en rs => busByteOp c d bl en rs s

/-- An instruction under a CFG that has passed the check of R6. -/
def execWith (c : Cfg) (i : Instr) (s : State) : Result := checked c (meaningWith c i s)

/-- One step under a CFG that has passed the check of R6: the host's next request, run to its end (R10). -/
def stepWith (c : Cfg) (s : State) : Result :=
  checked c <|
    match fetchWith c s with
    | .idle => .next s
    | .run i s' => meaningWith c i s'
    | .malformed why => .refused (.malformedRequest why)

end Sys2Proof.Machine
end

