-- ==== Sys2Proof/Machine/Receiver.lean ====
section
/-! DEFINITION. The reference receiver of R67 to R72: what an HD44780-class controller behind the usual bus expander makes
of the events LCDF sends. It is no part of LCDF's state (R33) and `exec` never reads it; only claims about the
display use it, and they say so (D24, log entry 14). It has no busy time (R72). -/

namespace Sys2Proof.Machine

/-- The controller's interface (R69). -/
inductive BusMode where
  | eightBit | fourBit
  deriving DecidableEq, Repr

/-- The receiver. -/
structure Receiver where
  /-- The bus address it answers to (R53). -/
  addr : BusAddr
  /-- A transaction addressed to it is open (R67). -/
  selected : Bool
  /-- What the eight lines hold (R67). -/
  lines : Byte
  /-- Its interface (R69). -/
  mode : BusMode
  /-- The first nibble of a pair, once latched (R69). -/
  half : Option Nibble
  /-- Nibbles latched so far, the index of the free values. -/
  latched : Nat
  /-- `AC` (R70). -/
  ac : DdramAddr
  /-- The display memory (R52). -/
  ddram : DdramAddr → Byte
  /-- What the configuration commands set (R71). -/
  settings : DisplaySettings

/-- A data value (R70). -/
def receiveData (r : Receiver) (v : Byte) : Receiver :=
  { r with ddram := fun a => if a = r.ac then v else r.ddram a, ac := r.ac + 1#7 }

/-- The interface a command leaves (R134): payload 0x3 in the high nibble selects 8 bits, 0x2 selects 4 bits. -/
def modeAfter (v : Byte) (m : BusMode) : BusMode :=
  if hiNibble v = 0x3#4 then .eightBit else if hiNibble v = 0x2#4 then .fourBit else m

/-- A command value (R70, R71). A command the spec gives no meaning (R100) leaves the address counter, the display
memory and the settings at free values. -/
def receiveCommand (c : Cfg) (r : Receiver) (v : Byte) : Receiver :=
  if v.getLsbD 7 then { r with ac := addressBits v }
  else if v = c.cmdFunctionSet then
    { r with mode := .fourBit, settings := { r.settings with twoLines := true, smallFont := true } }
  else if v = c.cmdEntryMode then
    { r with settings := { r.settings with increment := true, shift := false } }
  else if v = c.cmdDisplayOn then
    { r with settings := { r.settings with displayOn := true, cursor := false, blink := false } }
  else if v = c.cmdClearDisplay then { r with ac := 0#7, ddram := fun _ => 0x20#8 }
  else
    { r with mode := modeAfter v r.mode, ac := Config.recvFreeAc v r.latched,
             ddram := Config.recvFreeDdram v r.latched, settings := Config.recvFreeSettings v r.latched }

/-- A whole value, data if RS is 1 (R69). -/
def receiveValue (c : Cfg) (r : Receiver) (v : Byte) (rs : Bool) : Receiver :=
  if rs then receiveData r v else receiveCommand c r v

/-- A latched nibble (R69): in 8-bit mode the high half of a whole value whose low half is whatever the unconnected
lines read; in 4-bit mode the first or the second of a pair, with the RS of the second (log entry 14). R69 speaks of
8-bit mode for commands only. PRESUMED, the model's choice (log entry 14): a nibble latched there with RS = 1, as in a
REFRESH before any INITIALIZE (R220), is a data value: it is stored at `AC`, and `AC` advances. Unsafe. -/
def receiveNibble (c : Cfg) (r : Receiver) (n : Nibble) (rs : Bool) : Receiver :=
  let r1 := { r with latched := r.latched + 1 }
  match r.mode, r.half with
  | .eightBit, _ => receiveValue c { r1 with half := none } (n ++ Config.openLines r.latched) rs
  | .fourBit, none => { r1 with half := some n }
  | .fourBit, some h => receiveValue c { r1 with half := none } (h ++ n) rs

/-- One `Write` (R67, R68): the strobe's falling edge latches the payload and RS of the byte before. -/
def receiveLines (c : Cfg) (r : Receiver) (b : Byte) : Receiver :=
  let r1 := { r with lines := b }
  if r.lines &&& c.enMask ≠ 0#8 ∧ b &&& c.enMask = 0#8 then
    receiveNibble c r1 (hiNibble r.lines) (decide (r.lines &&& c.rsMask ≠ 0#8))
  else r1

/-- One event. -/
def receive (c : Cfg) (r : Receiver) (e : Event) : Receiver :=
  match e with
  | .beginTx a => { r with selected := decide (a = r.addr) }
  | .endTx => { r with selected := false }
  | .wait _ => r
  | .write b => if r.selected then receiveLines c r b else r

/-- A list of events, oldest first. -/
def receiveAll (c : Cfg) (evs : List Event) (r : Receiver) : Receiver := evs.foldl (receive c) r

end Sys2Proof.Machine
end

