-- ==== Sys2Proof/Safety.lean ====
section
/-! DEFINITION. The terms claims are stated in: what a well-framed trace is (R62, R90, R222), the invariant of a run, the
events of a frame written out from the rules, and what a claim about the display starts from. -/

namespace Sys2Proof.Safety

open Sys2Proof.Machine

/-! ## Frames written out from the rules -/

/-- The base value of R87. -/
def base (c : Cfg) (n : Byte) (rs bl : Bool) : Byte :=
  (n &&& c.nibbleMask) ||| (if rs then c.rsMask else 0#8) ||| (if bl then c.blMask else 0#8)

/-- The five events of R111. -/
def nibbleWriteEvents (c : Cfg) (a : BusAddr) (bl : Bool) (n : Byte) (rs : Bool) : List Event :=
  [.beginTx a, .write (base c n rs bl), .write (base c n rs bl ||| c.enMask), .write (base c n rs bl), .endTx]

/-- The eight events of R112. -/
def byteWriteEvents (c : Cfg) (a : BusAddr) (bl : Bool) (v : Byte) (rs : Bool) : List Event :=
  [.beginTx a,
   .write (base c v rs bl), .write (base c v rs bl ||| c.enMask), .write (base c v rs bl),
   .write (base c (v <<< 4) rs bl), .write (base c (v <<< 4) rs bl ||| c.enMask), .write (base c (v <<< 4) rs bl),
   .endTx]

/-- The events of INITIALIZE (R133). -/
def scriptEvents (c : Cfg) (a : BusAddr) (bl : Bool) : List Event :=
  [.wait c.tPowerOnMs] ++
  nibbleWriteEvents c a bl (c.initNibble 0) false ++ [.wait (c.tInitNibbleMs 0)] ++
  nibbleWriteEvents c a bl (c.initNibble 1) false ++ [.wait (c.tInitNibbleMs 1)] ++
  nibbleWriteEvents c a bl (c.initNibble 2) false ++ [.wait (c.tInitNibbleMs 2)] ++
  nibbleWriteEvents c a bl (c.initNibble 3) false ++ [.wait (c.tInitNibbleMs 3)] ++
  byteWriteEvents c a bl c.cmdFunctionSet false ++ [.wait (c.tCmdMs 0)] ++
  byteWriteEvents c a bl c.cmdEntryMode false ++ [.wait (c.tCmdMs 1)] ++
  byteWriteEvents c a bl c.cmdDisplayOn false ++ [.wait (c.tCmdMs 2)] ++
  byteWriteEvents c a bl c.cmdClearDisplay false ++ [.wait (c.tCmdMs 3)]

/-- The cells of logical row `r` as data frames in increasing offset (R152). -/
def cellEvents (c : Cfg) (d : Driver) (r : Nat) : List Event :=
  (List.range (cols c d.geom)).flatMap fun k =>
    byteWriteEvents c d.busAddr d.bl (Memory.read c d.buf (r * cols c d.geom + k)) true

/-- Logical row `r` in REFRESH (R152): the address-set of its base (R58), then its cells. -/
def rowEvents (c : Cfg) (d : Driver) (r : Nat) : List Event :=
  byteWriteEvents c d.busAddr d.bl
    (c.opcSetDdram ||| BitVec.ofNat 8 ((if r % 2 = 0 then c.rowBase0 else c.rowBase1).toNat + r / 2 * cols c d.geom))
    false ++ cellEvents c d r

/-- The events of REFRESH (R152): the rows in logical order (R153, log entry 17). -/
def refreshRows (c : Cfg) (d : Driver) : List Event := (List.range (rows c d.geom)).flatMap (rowEvents c d)

/-! ## Buffers written out from the rules -/

/-- The Driver State that a CONSTRUCT leaves (R130): the operands, the backlight off, every cell `BLANK`, no other cell. -/
def Constructed (c : Cfg) (g : Geom) (a : BusAddr) (d : Driver) : Prop :=
  d.geom = g ∧ d.busAddr = a ∧ d.bl = false ∧
  (∀ i, i < cols c g * rows c g → loadCell c d i = some c.blank) ∧
  (∀ i, cols c g * rows c g ≤ i → loadCell c d i = none)

/-- The buffer `m` that a PRINT leaves of `d`'s (R171): inside the grid the text's effective part from (row, col) to the
row's end at most; every other cell as it was. -/
def Printed (c : Cfg) (d : Driver) (row col : Byte) (text : List Byte) (m : Memory) : Prop :=
  ∀ i, loadCell c { d with buf := m } i =
    (if row.toNat < rows c d.geom ∧ col.toNat < cols c d.geom ∧
        row.toNat * cols c d.geom + col.toNat ≤ i ∧
        i < row.toNat * cols c d.geom + col.toNat + min (cols c d.geom - col.toNat) (effectiveText c text).length then
      (effectiveText c text)[i - (row.toNat * cols c d.geom + col.toNat)]?
    else loadCell c d i)

/-! ## Well-framed traces -/

/-- One strobe pulse (R116, R222): base, base with strobe, base; the strobe idle and the read/write bit 0 in the base. -/
def pulse (c : Cfg) (b0 b1 b2 : Byte) : Bool :=
  b1 == (b0 ||| c.enMask) && b2 == b0 && b0 &&& c.enMask == 0#8 && b0 &&& c.rwMask == 0#8

/-- RS and backlight are equal in both triples of a byte frame (R222). -/
def sameControl (c : Cfg) (b0 b3 : Byte) : Bool := b0 &&& ~~~c.nibbleMask == b3 &&& ~~~c.nibbleMask

/-- A trace made of waits and whole transactions of one or two triples: none nested, none open at the end, no wait
inside one (R62, R90, R222, R230). -/
def framed (c : Cfg) : List Event → Bool
  | [] => true
  | .wait _ :: rest => framed c rest
  | .beginTx _ :: .write a0 :: .write a1 :: .write a2 :: .endTx :: rest => pulse c a0 a1 a2 && framed c rest
  | .beginTx _ :: .write a0 :: .write a1 :: .write a2 :: .write b0 :: .write b1 :: .write b2 :: .endTx :: rest =>
    pulse c a0 a1 a2 && pulse c b0 b1 b2 && sameControl c a0 b0 && framed c rest
  | _ => false

/-! ## The invariant -/

/-- The buffer is in canonical form, which is the model's (log entry 9), and lists only cells of its geometry (R50). -/
def BufferOk (c : Cfg) (d : Driver) : Prop :=
  Memory.wf c d.buf ∧ Memory.within (nCells c d.geom) d.buf

/-- GEOM and BUSADDR hold legal values: a code below `NGEOM`, an address of `BUSADDR_BITS` bits (R21, R22, R29). -/
def RegistersLegal (c : Cfg) (d : Driver) : Prop := (geomCode d.geom).toNat < c.nGeom ∧ addressFits c d.busAddr

/-- `FAULTCODE` is the fault's code in FAULTED and 0 elsewhere (R25, R27). -/
def FaultCodeOk (c : Cfg) (s : State) : Prop :=
  s.faultCode = if lifeName s.life = .FAULTED then c.faultUnsupportedGeometry else 0

/-- What holds at reset and after every step, under a CFG. -/
def Inv (c : Cfg) (s : State) : Prop :=
  (∀ d, s.life = .ready d → BufferOk c d ∧ RegistersLegal c d) ∧ FaultCodeOk c s ∧ framed c s.trace = true

/-! ## CFG -/

/-- The values of R99 can be told apart: the two initialization payloads differ, and so do the four commands, from each
other and from every address-set. The default CFG is such; R6 does not ask for it. -/
abbrev CommandsApart (c : Cfg) : Prop :=
  c.initNibble 0 &&& c.nibbleMask ≠ c.initNibble 3 &&& c.nibbleMask ∧
  [c.cmdFunctionSet, c.cmdEntryMode, c.cmdDisplayOn, c.cmdClearDisplay].Nodup ∧
  ∀ v ∈ [c.cmdFunctionSet, c.cmdEntryMode, c.cmdDisplayOn, c.cmdClearDisplay], v &&& 0x80#8 ≠ c.opcSetDdram

/-! ## Requests and events -/

/-- A CONSTRUCT with this code names a geometry (R95). -/
def supported (code : BitVec 3) : Bool := decide (code.toNat ≤ 5)

/-- CONSTRUCT, whatever its operands. -/
def isConstruct : Instr → Bool
  | .construct _ _ => true
  | _ => false

/-- The host's requests other than CONSTRUCT and the reserved selectors (R195). -/
def needsReady : Instr → Bool
  | .init | .clear | .print _ _ _ | .refresh | .backlight _ => true
  | _ => false

/-- What `refused(NotReady)` leaves: the outcome, and everything else as it was (R195). -/
def turnedAway (s : State) : State := { s with reply := some (.refused .notReady) }

/-- LCDF's own operations and the controller values: those that send a frame (R111, R112, R150, R151, R99). -/
def sendsFrame : Instr → Bool
  | .nibbleWrite _ _ | .byteWrite _ _ | .addressSet _ | .dataWrite _ | .init8bit _ | .init4bit _ | .functionSet
  | .entryMode | .displayOn | .clearDisplay | .setDdramAddr _ | .data _ => true
  | _ => false

/-- A `Wait`. -/
def isWait : Event → Bool
  | .wait _ => true
  | _ => false

/-- A `Write`. -/
def isWrite : Event → Bool
  | .write _ => true
  | _ => false

/-- A `Write` of a command frame: RS is 0 (R82). -/
def isCommandWrite : Event → Bool
  | .write b => b &&& Config.cfg.rsMask == 0#8
  | _ => false

/-- A `Write` of a data frame: RS is 1 (R82). -/
def isDataWrite : Event → Bool
  | .write b => b &&& Config.cfg.rsMask != 0#8
  | _ => false

/-- A `Begin`. -/
def isBegin : Event → Bool
  | .beginTx _ => true
  | _ => false

/-- An event without the payload of a data byte: what the cells' contents may change (R182). -/
def withoutData (e : Event) : Event :=
  match e with
  | .write b => if b &&& Config.cfg.rsMask ≠ 0#8 then .write (b &&& ~~~Config.cfg.nibbleMask) else .write b
  | .beginTx a => .beginTx a
  | .endTx => .endTx
  | .wait ms => .wait ms

/-- One event of an instance with bus address `a` and backlight flag `bl`: a `Begin` carries the address (R22), a `Write`
has the backlight bit at `bl` (R83) and the read/write bit at 0 (R85). -/
def carries (a : BusAddr) (bl : Bool) (e : Event) : Prop :=
  match e with
  | .beginTx x => x = a
  | .write b => b &&& Config.cfg.blMask = (if bl then Config.cfg.blMask else 0#8) ∧ b &&& Config.cfg.rwMask = 0#8
  | .endTx | .wait _ => True

/-! ## The display -/

/-- The strobe line is idle (R116). -/
def StrobeIdle (c : Cfg) (r : Receiver) : Prop := r.lines &&& c.enMask = 0#8

/-- In 4-bit mode at a nibble boundary with the strobe idle (R61). -/
def InStep (c : Cfg) (r : Receiver) : Prop := r.mode = .fourBit ∧ r.half = none ∧ StrobeIdle c r

end Sys2Proof.Safety
end

