-- ==== Sys2Proof/Certificates/Slice0/Obligations.lean ====
section
/-! DEFINITION. The statements about the model, from the rules of spec/. `reply` holds the outcome that R10 makes the third
part of an operation's result; that a field of State holds it is the model's (log entry 5). `exec` and `step` run with
the default CFG of R5 (log entry 1); `execWith c` and `stepWith c` are the same machine under the CFG `c`,
which they check first (R6); `meaningWith c` is what the rules give an instruction under `c`, before that check. -/

open Sys2Proof Sys2Proof.Machine Sys2Proof.Safety

/-! ## The step, decoding, encoding -/

/-- R10, R35 and the model's port (log entry 2): a step takes the host's next request off the port and is `exec` of
what its bytes decode to; with no request LCDF waits. That bytes which encode no request are refused by name is the
model's choice (log entry 3). -/
def Obligations.StepRunsTheDecodedRequest : Prop :=
  (∀ s r rest i, s.port = r :: rest → decode r = .ok i → step s = exec i { s with port := rest }) ∧
  (∀ s, s.port = [] → step s = .next s) ∧
  (∀ s r rest why, s.port = r :: rest → decode r = .error why → step s = .refused (.malformedRequest why))

/-- R5, R30: CFG is a parameter of the step function; `exec`, `step`, `decode` and `encode` are the machine at its default
value. That the default stands there is the model's choice (log entry 1). -/
def Obligations.ExecAndStepAreTheDefaultCase : Prop :=
  (∀ i s, exec i s = execWith Config.cfg i s) ∧ (∀ s, step s = stepWith Config.cfg s) ∧
  (∀ r, decode r = decodeWith Config.cfg r) ∧ ∀ i, encode i = encodeWith Config.cfg i

/-- R6: the machine checks its CFG before it runs anything. Under a well-formed CFG an instruction does what the rules say,
and a step runs the decoded request; under any other nothing runs, whatever the instruction and the state, and the refusal
names the reason. The default CFG passes. That the failed check is a refusal named illFormedCfg is the model's choice (log
entry 18). -/
def Obligations.CfgIsCheckedBeforeAnythingRuns : Prop :=
  (∀ c i s, CfgWellFormed c → execWith c i s = meaningWith c i s) ∧
  (∀ c s, CfgWellFormed c → s.port = [] → stepWith c s = .next s) ∧
  (∀ c s r rest i, CfgWellFormed c → s.port = r :: rest → decodeWith c r = .ok i →
    stepWith c s = meaningWith c i { s with port := rest }) ∧
  (∀ c s r rest why, CfgWellFormed c → s.port = r :: rest → decodeWith c r = .error why →
    stepWith c s = .refused (.malformedRequest why)) ∧
  (∀ c i s, ¬ CfgWellFormed c → execWith c i s = .refused .illFormedCfg ∧ stepWith c s = .refused .illFormedCfg) ∧
  CfgWellFormed Config.cfg

/-- R81, R87, R94, R99, R111, R112, R150, R151: words written out from the tables and rules, one or more a layer. The bytes after a host selector,
and those of the four internal operations, are the model's layout (log entry 3). -/
def Obligations.WrittenOutWordsDecode : Prop :=
  decode ⟨.host, [0b000#8, 0b00000011#8, 0b0100111#8]⟩ = .ok (.construct 0b011#3 0b0100111#7) ∧
  decode ⟨.host, [0b001#8]⟩ = .ok .init ∧
  decode ⟨.host, [0b011#8, 0x01#8, 0x0E#8, 0x41#8, 0x42#8, 0x00#8]⟩ = .ok (.print 0x01#8 0x0E#8 [0x41#8, 0x42#8, 0x00#8]) ∧
  decode ⟨.host, [0b101#8, 0b1#8]⟩ = .ok (.backlight true) ∧
  decode ⟨.triple, [0b10101001#8, 0b10101101#8, 0b10101001#8]⟩ = .ok (.triple 0xA0#8 true true) ∧
  decode ⟨.nibbleWrite, [0b00110000#8, 0b0#8]⟩ = .ok (.nibbleWrite 0b00110000#8 false) ∧
  decode ⟨.byteWrite, [0b10101011#8, 0b1#8]⟩ = .ok (.byteWrite 0b10101011#8 true) ∧
  decode ⟨.addressSet, [0b11010100#8]⟩ = .ok (.addressSet 0b1010100#7) ∧
  decode ⟨.dataWrite, [0b01000001#8]⟩ = .ok (.dataWrite 0b01000001#8) ∧
  decode ⟨.ctrlNibble, [0b00110101#8]⟩ = .ok (.init8bit 0b0101#4) ∧
  decode ⟨.ctrlNibble, [0b00101000#8]⟩ = .ok (.init4bit 0b1000#4) ∧
  decode ⟨.ctrlCommand, [0b00101000#8]⟩ = .ok .functionSet ∧
  decode ⟨.ctrlCommand, [0b11010100#8]⟩ = .ok (.setDdramAddr 0b1010100#7) ∧
  decode ⟨.ctrlData, [0b10000000#8]⟩ = .ok (.data 0b10000000#8) ∧
  decode ⟨.busByte, [0b01011101#8]⟩ = .ok (.busByte 0b0101#4 true true true)

/-- Decoding the words of a well-formed instruction gives it back, for every operand an encoding admits; and so under every
well-formed CFG whose command values can be told apart. -/
def Obligations.DecodeOfEncodeIsTheInstruction : Prop :=
  (∀ i, WellFormed i = true → decode (encode i) = .ok i) ∧
  ∀ c, CfgWellFormed c → CommandsApart c → ∀ i, WellFormedWith c i = true → decodeWith c (encodeWith c i) = .ok i

/-- Where the decoder answers, the request is exactly the words of that instruction: no bit is read and dropped; and so
under every well-formed CFG. That bytes too many or a set bit of no field keep a request from decoding is the model's
choice (log entry 3). -/
def Obligations.DecodedWordsAreTheEncoding : Prop :=
  (∀ r i, decode r = .ok i → encode i = r ∧ WellFormed i = true) ∧
  ∀ c, CfgWellFormed c → ∀ r i, decodeWith c r = .ok i → encodeWith c i = r ∧ WellFormedWith c i = true

/-! ## Lifecycle -/

/-- R130, R132, R193: from every lifecycle state, a CONSTRUCT with a supported code ends `ok` in READY, with the operands in
GEOM and BUSADDR, BL 0, FAULTCODE 0, every cell of the new buffer BLANK and no other cell; with a code outside the set it
faults: FAULTCODE 1, FAULTED, no driver state, the outcome naming the code. Either way TRACE is kept and nothing is
emitted. Under any CFG the set is the codes below NGEOM, and the code of the fault is CFG's. -/
def Obligations.ConstructResetsOrFaults : Prop :=
  (∀ (s : State) (g : Geom) (a : BusAddr),
    ∃ d, exec (.construct (geomCode g) a) s = .next { s with life := .ready d, faultCode := 0, reply := some .ok } ∧
      Constructed Config.cfg g a d) ∧
  (∀ (s : State) (code : BitVec 3) (a : BusAddr), 5 < code.toNat →
    exec (.construct code a) s =
      .next { s with life := .faulted, faultCode := 1, reply := some (.fault 1 code) }) ∧
  (∀ (c : Cfg) (s : State) (g : Geom) (a : BusAddr), (geomCode g).toNat < c.nGeom →
    ∃ d, meaningWith c (.construct (geomCode g) a) s =
        .next { s with life := .ready d, faultCode := 0, reply := some .ok } ∧ Constructed c g a d) ∧
  (∀ (c : Cfg) (s : State) (code : BitVec 3) (a : BusAddr), c.nGeom ≤ code.toNat →
    meaningWith c (.construct code a) s =
      .next { s with life := .faulted, faultCode := c.faultUnsupportedGeometry,
                     reply := some (.fault c.faultUnsupportedGeometry code) })

/-- R133: in READY, INITIALIZE appends exactly the script and changes no register; else it is refused. The same script,
with CFG's values, under every CFG: a wait of 0 is still sent (R138). -/
def Obligations.InitializeSendsTheScript : Prop :=
  (∀ s : State, driverOf s.life = none → exec .init s = .next (turnedAway s)) ∧
  (∀ (s : State) (d : Driver), s.life = .ready d →
    exec .init s = .next { s with trace := s.trace ++ scriptEvents Config.cfg d.busAddr d.bl, reply := some .ok }) ∧
  ∀ (c : Cfg) (s : State) (d : Driver), s.life = .ready d →
    meaningWith c .init s = .next { s with trace := s.trace ++ scriptEvents c d.busAddr d.bl, reply := some .ok }

/-- R195: outside READY, each of the five operations is turned away; in every lifecycle state the reserved selectors are;
both change nothing and emit nothing. -/
def Obligations.RefusalsChangeNothing : Prop :=
  (∀ (s : State) (i : Instr), driverOf s.life = none → needsReady i = true → exec i s = .next (turnedAway s)) ∧
  (∀ (s : State) (i : Instr), i ∈ [Instr.reserved6, Instr.reserved7] →
    exec i s = .next { s with reply := some (.refused .reservedOp) })

/-- R199: the first matching check decides the outcome of a host request. -/
def Obligations.FirstMatchingCheckDecides : Prop :=
  ∀ (s t : State) (i : Instr), (encode i).layer = .host → exec i s = .next t →
    t.reply = some (
      if i = .reserved6 ∨ i = .reserved7 then .refused .reservedOp
      else if isConstruct i = false ∧ lifeName s.life ≠ .READY then .refused .notReady
      else match i with
        | .construct code _ => if supported code then .ok else .fault Config.cfg.faultUnsupportedGeometry code
        | _ => .ok)

/-- R194, R201: from FAULTED or UNCONSTRUCTED every request but a CONSTRUCT changes nothing but the reply, and a CONSTRUCT
ends in READY exactly when its code is supported. -/
def Obligations.OnlyConstructLeavesFaulted : Prop :=
  ∀ (s t : State) (i : Instr), driverOf s.life = none → exec i s = .next t →
    (isConstruct i = false → t = { s with reply := t.reply }) ∧
    (∀ code a, i = .construct code a →
      lifeName t.life = if supported code then .READY else .FAULTED)

/-! ## Buffer operations -/

/-- R170: in READY, CLEAR makes every cell BLANK and changes nothing else; else it is refused. -/
def Obligations.ClearBlanksEveryCell : Prop :=
  (∀ s : State, driverOf s.life = none → exec .clear s = .next (turnedAway s)) ∧
  ∀ (s : State) (d : Driver), s.life = .ready d →
    ∃ m, exec .clear s = .next { s with life := .ready { d with buf := m }, reply := some .ok } ∧
      ∀ i, i < cols Config.cfg d.geom * rows Config.cfg d.geom →
        loadCell Config.cfg { d with buf := m } i = some Config.cfg.blank

/-- R171, R172, R173: in READY, PRINT ends `ok` and changes nothing but the buffer; inside the grid it copies the text's
effective part from (row, col) to the row's end at most, `min(COLS - col, length)` cells, and every other cell keeps its
value; outside the grid every cell keeps its value. Outside READY it is refused. Under every
CFG it does the same with CFG's terminator and table. -/
def Obligations.PrintCopiesTheEffectiveText : Prop :=
  (∀ (s : State) (row col : Byte) (text : List Byte), driverOf s.life = none →
    exec (.print row col text) s = .next (turnedAway s)) ∧
  (∀ (s : State) (d : Driver) (row col : Byte) (text : List Byte), s.life = .ready d →
    ∃ m, exec (.print row col text) s = .next { s with life := .ready { d with buf := m }, reply := some .ok } ∧
      Printed Config.cfg d row col text m) ∧
  ∀ (c : Cfg) (s : State) (d : Driver) (row col : Byte) (text : List Byte), s.life = .ready d →
    ∃ m, meaningWith c (.print row col text) s = .next { s with life := .ready { d with buf := m }, reply := some .ok } ∧
      Printed c d row col text m

/-- R172: a start outside the grid makes PRINT change nothing at all; the outcome is `ok`. -/
def Obligations.PrintOutsideTheGridIsANoOp : Prop :=
  ∀ (s : State) (d : Driver) (row col : Byte) (text : List Byte), s.life = .ready d →
    (rows Config.cfg d.geom ≤ row.toNat ∨ cols Config.cfg d.geom ≤ col.toNat) →
    exec (.print row col text) s = .next { s with reply := some .ok }

/-- R176: in READY, BACKLIGHT writes BL and nothing else; else it is refused. -/
def Obligations.BacklightWritesTheFlag : Prop :=
  (∀ (s : State) (on : Bool), driverOf s.life = none → exec (.backlight on) s = .next (turnedAway s)) ∧
  ∀ (s : State) (d : Driver) (on : Bool), s.life = .ready d →
    exec (.backlight on) s = .next { s with life := .ready { d with bl := on }, reply := some .ok }

/-! ## The translator -/

/-- R152 with the map of R58: in READY, REFRESH appends, for each logical row in order, the address-set of the row's base
and then the row's cells as data frames in increasing offset, and changes no register; else it is refused. The same under
every well-formed CFG. That the rows of a 4-row geometry go out in logical order is the spec's decision D4 (R153, log
entry 17). -/
def Obligations.RefreshSendsRowByRow : Prop :=
  (∀ s : State, driverOf s.life = none → exec .refresh s = .next (turnedAway s)) ∧
  (∀ (s : State) (d : Driver), s.life = .ready d →
    exec .refresh s = .next { s with trace := s.trace ++ refreshRows Config.cfg d, reply := some .ok }) ∧
  ∀ (c : Cfg) (s : State) (d : Driver), CfgWellFormed c → s.life = .ready d →
    execWith c .refresh s = .next { s with trace := s.trace ++ refreshRows c d, reply := some .ok }

/-- R154: REFRESH makes ROWS command byte-writes and COLS*ROWS data byte-writes, each one transaction of 6 bus bytes, so
`8*(NCELLS + ROWS)` events in all, of which none is a Wait (R159). -/
def Obligations.RefreshCounts : Prop :=
  ∀ (s t : State) (d : Driver), s.life = .ready d → exec .refresh s = .next t →
    ∃ evs, t.trace = s.trace ++ evs ∧
      evs.length = 8 * (cols Config.cfg d.geom * rows Config.cfg d.geom + rows Config.cfg d.geom) ∧
      evs.countP isBegin = cols Config.cfg d.geom * rows Config.cfg d.geom + rows Config.cfg d.geom ∧
      evs.countP isCommandWrite = 6 * rows Config.cfg d.geom ∧
      evs.countP isDataWrite = 6 * (cols Config.cfg d.geom * rows Config.cfg d.geom) ∧
      evs.countP isWait = 0

/-- R155: rows 2 and 3 start at the bases of rows 0 and 1 plus the column count, under every CFG: 0x10 and 0x50 for 16x4,
0x14 and 0x54 for 20x4; and a 16x4 REFRESH sends exactly the four address-sets 0x80, 0xC0, 0x90, 0xD0, each before the
16 cells of its row. That the four go out in this order is not R155's but the spec's decision D4 (R153, log entry 17). -/
def Obligations.LowerRowsReuseTheBases : Prop :=
  (∀ (c : Cfg) (g : Geom) (r : Nat), segmentBase c g (r + 2) = segmentBase c g r + cols c g) ∧
  (segmentBase Config.cfg .g16x4 2 = 0x10 ∧ segmentBase Config.cfg .g16x4 3 = 0x50 ∧
    segmentBase Config.cfg .g20x4 2 = 0x14 ∧ segmentBase Config.cfg .g20x4 3 = 0x54) ∧
  (∀ (s t : State) (d : Driver), s.life = .ready d → d.geom = .g16x4 → exec .refresh s = .next t →
    let addressSet := fun v : Byte => byteWriteEvents Config.cfg d.busAddr d.bl v false
    let row := fun r : Nat => (List.range 16).flatMap fun k =>
      byteWriteEvents Config.cfg d.busAddr d.bl (Memory.read Config.cfg d.buf (r * 16 + k)) true
    t.trace = s.trace ++
      (addressSet 0x80#8 ++ row 0 ++ addressSet 0xC0#8 ++ row 1 ++ addressSet 0x90#8 ++ row 2 ++ addressSet 0xD0#8 ++ row 3))

/-- R60 (c), R61, under every well-formed CFG: every cell of the grid has a 7-bit controller address, and no two cells
share one. -/
def Obligations.TranslationIsInjective : Prop :=
  ∀ (c : Cfg) (g : Geom) (i j : Nat), CfgWellFormed c → i < nCells c g → j < nCells c g →
    xlateOffset c g i < 0x80 ∧ (xlateOffset c g i = xlateOffset c g j → i = j)

/-- R156: two REFRESHes with the same driver state, whatever ran between them, send the same events, the whole buffer each
time, and neither changes a register. -/
def Obligations.RepeatedRefreshSendsTheSame : Prop :=
  ∀ (s s' t t' : State) (d : Driver), s.life = .ready d → s'.life = .ready d →
    exec .refresh s = .next t → exec .refresh s' = .next t' →
    ∃ evs, evs.length = 8 * (nCells Config.cfg d.geom + rows Config.cfg d.geom) ∧
      t = { s with trace := s.trace ++ evs, reply := some .ok } ∧
      t' = { s' with trace := s'.trace ++ evs, reply := some .ok }

/-- R37: REFRESH sends the same events whether or not INITIALIZE has run before it. -/
def Obligations.RefreshIgnoresInitialize : Prop :=
  ∀ (s t u v : State) (d : Driver), s.life = .ready d →
    exec .refresh s = .next t → exec .init s = .next u → exec .refresh u = .next v →
    ∃ evs, evs ≠ [] ∧ t.trace = s.trace ++ evs ∧ v.trace = u.trace ++ evs

/-- R182, R66: the cells' contents never steer REFRESH: two instances that differ only in BUF send the same number of the
same events but for the payload of data bytes. -/
def Obligations.CellsNeverSteerRefresh : Prop :=
  ∀ (s s' t t' : State) (d : Driver) (m : Memory),
    s.life = .ready d → s'.life = .ready { d with buf := m } →
    exec .refresh s = .next t → exec .refresh s' = .next t' →
    ∃ evs evs', t.trace = s.trace ++ evs ∧ t'.trace = s'.trace ++ evs' ∧
      evs.map withoutData = evs'.map withoutData

/-- R135, R136: what INITIALIZE sends depends on BUSADDR and BL alone, not on the geometry nor on the buffer. -/
def Obligations.InitializeIgnoresGeometryAndBuffer : Prop :=
  ∀ (s s' t t' : State) (d d' : Driver), s.life = .ready d → s'.life = .ready d' →
    d.busAddr = d'.busAddr → d.bl = d'.bl → exec .init s = .next t → exec .init s' = .next t' →
    ∃ evs, evs.length = 61 ∧ t.trace = s.trace ++ evs ∧ t'.trace = s'.trace ++ evs

/-! ## The framer and the controller values. That they run as steps of their own is the model's (log entry 4). -/

/-- R110: TRIPLE returns base, base with strobe, base, in every state, and changes nothing. That a returned value goes to
`reply` is the model's (log entry 6). -/
def Obligations.TripleReturnsOnePulse : Prop :=
  ∀ (s : State) (n : Byte) (rs bl : Bool),
    exec (.triple n rs bl) s = .next { s with
      reply := some (.value [base Config.cfg n rs bl, base Config.cfg n rs bl ||| Config.cfg.enMask, base Config.cfg n rs bl]) }

/-- R111: in READY, NIBBLE_WRITE appends its five events and changes no register. -/
def Obligations.NibbleWriteSendsOneTriple : Prop :=
  ∀ (s : State) (d : Driver) (n : Byte) (rs : Bool), s.life = .ready d →
    exec (.nibbleWrite n rs) s = .next { s with
      trace := s.trace ++ nibbleWriteEvents Config.cfg d.busAddr d.bl n rs, reply := some .ok }

/-- R112: in READY, BYTE_WRITE appends its eight events, high nibble first, and changes no register. -/
def Obligations.ByteWriteSendsTwoTriples : Prop :=
  ∀ (s : State) (d : Driver) (v : Byte) (rs : Bool), s.life = .ready d →
    exec (.byteWrite v rs) s = .next { s with
      trace := s.trace ++ byteWriteEvents Config.cfg d.busAddr d.bl v rs, reply := some .ok }

/-- R150, R151: in READY, ADDRESS_SET is the byte write of the opcode with the address, RS 0, and DATA_WRITE the byte write
of the cell value, RS 1; neither changes a register. -/
def Obligations.AddressSetAndDataWriteSendFrames : Prop :=
  ∀ (s : State) (d : Driver), s.life = .ready d →
    (∀ a : DdramAddr, exec (.addressSet a) s = .next { s with
      trace := s.trace ++ byteWriteEvents Config.cfg d.busAddr d.bl (Config.cfg.opcSetDdram ||| (0#1 ++ a)) false,
      reply := some .ok }) ∧
    (∀ v : Byte, exec (.dataWrite v) s = .next { s with
      trace := s.trace ++ byteWriteEvents Config.cfg d.busAddr d.bl v true, reply := some .ok })

/-- R99: in READY, each controller value goes out in the frame and with the RS its row gives, the default CFG's values, and
no register changes; the low four bits of the two nibble values are not sent (R92). -/
def Obligations.ControllerValuesGoOutInTheirFrames : Prop :=
  ∀ (s : State) (d : Driver), s.life = .ready d →
    (∀ x : Nibble, exec (.init8bit x) s = .next { s with
      trace := s.trace ++ nibbleWriteEvents Config.cfg d.busAddr d.bl 0x30#8 false, reply := some .ok }) ∧
    (∀ x : Nibble, exec (.init4bit x) s = .next { s with
      trace := s.trace ++ nibbleWriteEvents Config.cfg d.busAddr d.bl 0x20#8 false, reply := some .ok }) ∧
    exec .functionSet s = .next { s with
      trace := s.trace ++ byteWriteEvents Config.cfg d.busAddr d.bl 0x28#8 false, reply := some .ok } ∧
    exec .entryMode s = .next { s with
      trace := s.trace ++ byteWriteEvents Config.cfg d.busAddr d.bl 0x06#8 false, reply := some .ok } ∧
    exec .displayOn s = .next { s with
      trace := s.trace ++ byteWriteEvents Config.cfg d.busAddr d.bl 0x0C#8 false, reply := some .ok } ∧
    exec .clearDisplay s = .next { s with
      trace := s.trace ++ byteWriteEvents Config.cfg d.busAddr d.bl 0x01#8 false, reply := some .ok } ∧
    (∀ a : DdramAddr, exec (.setDdramAddr a) s = .next { s with
      trace := s.trace ++ byteWriteEvents Config.cfg d.busAddr d.bl (1#1 ++ a) false, reply := some .ok }) ∧
    (∀ v : Byte, exec (.data v) s = .next { s with
      trace := s.trace ++ byteWriteEvents Config.cfg d.busAddr d.bl v true, reply := some .ok })

/-- R81: BUSBYTE assembles `ddddbe0r` in every state and changes nothing. That it returns the byte and emits nothing is the
model's (log entry 6). -/
def Obligations.BusByteAssemblesItsFields : Prop :=
  ∀ (s : State) (d : Nibble) (bl en rs : Bool),
    exec (.busByte d bl en rs) s = .next { s with
      reply := some (.value [d ++ BitVec.ofBool bl ++ BitVec.ofBool en ++ 0#1 ++ BitVec.ofBool rs]) }

/-- R25, R199 applied to LCDF's own operations (log entry 7): outside READY, BUSADDR and BL hold no value, so an operation that sends a
frame is turned away and changes nothing. -/
def Obligations.FramesNeedADriver : Prop :=
  ∀ (s : State) (i : Instr), driverOf s.life = none → sendsFrame i = true →
    exec i s = .next { s with reply := some (.refused .notReady) }

/-! ## Whole-machine rules -/

/-- R10, R206, R184: every instruction ends in a next state from every state, under every CFG; no access is out of range, so
no step of a decoded request stops the machine. -/
def Obligations.EveryInstructionCompletes : Prop :=
  (∀ (s : State) (i : Instr), ∃ t, exec i s = .next t) ∧
  ∀ (c : Cfg) (s : State) (i : Instr), ∃ t, meaningWith c i s = .next t

/-- R21, R22, R27: no instruction but CONSTRUCT changes LIFE, FAULTCODE, GEOM or BUSADDR. -/
def Obligations.OnlyConstructWritesTheFixedRegisters : Prop :=
  ∀ (s t : State) (i : Instr), exec i s = .next t → isConstruct i = false →
    lifeName t.life = lifeName s.life ∧ t.faultCode = s.faultCode ∧
    (driverOf t.life).map (fun d => (d.geom, d.busAddr)) = (driverOf s.life).map (fun d => (d.geom, d.busAddr))

/-- R23, R34: no instruction but CONSTRUCT and BACKLIGHT changes BL; none but CONSTRUCT, CLEAR and PRINT changes BUF. -/
def Obligations.WritersOfBacklightAndBuffer : Prop :=
  ∀ (s t : State) (i : Instr), exec i s = .next t → isConstruct i = false →
    ((∀ on, i ≠ .backlight on) → (driverOf t.life).map (·.bl) = (driverOf s.life).map (·.bl)) ∧
    (i ≠ .clear → (∀ row col text, i ≠ .print row col text) →
      (driverOf t.life).map (·.buf) = (driverOf s.life).map (·.buf))

/-- R31: TRACE is append-only (CONSTRUCT does not clear it), and no instruction reads it: with any other TRACE in its place
the instruction appends the same events and does the same. -/
def Obligations.TraceIsAppendOnlyAndNeverRead : Prop :=
  ∀ (s t : State) (i : Instr), exec i s = .next t →
    ∃ evs, t.trace = s.trace ++ evs ∧
      ∀ tr, exec i { s with trace := tr } = .next { t with trace := tr ++ evs }

/-- R177: none of CLEAR, PRINT, BACKLIGHT, CONSTRUCT emits an event. -/
def Obligations.BufferOperationsEmitNothing : Prop :=
  ∀ (s t : State) (i : Instr), exec i s = .next t →
    (isConstruct i = true ∨ i = .clear ∨ (∃ row col text, i = .print row col text) ∨ (∃ on, i = .backlight on)) →
    t.trace = s.trace

/-- R231 with the model's two fields of its own (log entries 2 and 5): every instruction reports something, leaves the port
as it is, and reads neither the port nor the last outcome. -/
def Obligations.PortAndReplyAreNeverRead : Prop :=
  ∀ (s t : State) (i : Instr) (p : List Request) (r : Option Reply), exec i s = .next t →
    t.reply ≠ none ∧ t.port = s.port ∧ exec i { s with port := p, reply := r } = .next { t with port := p }

/-- R139, R159: no instruction but INITIALIZE emits a Wait. -/
def Obligations.OnlyInitializeWaits : Prop :=
  ∀ (s t : State) (i : Instr), exec i s = .next t → i ≠ .init →
    ∃ evs, t.trace = s.trace ++ evs ∧ evs.countP isWait = 0

/-- R183, R137: INITIALIZE in READY emits exactly 61 events, 9 of them waits, 8 transactions, 36 bus bytes; no instruction
emits more than 672. -/
def Obligations.EventsAreBounded : Prop :=
  ∀ (s t : State) (i : Instr), exec i s = .next t →
    ∃ evs, t.trace = s.trace ++ evs ∧ evs.length ≤ 672 ∧
      (i = .init → lifeName s.life = .READY →
        evs.length = 61 ∧ evs.countP isWait = 9 ∧ evs.countP isBegin = 8 ∧ evs.countP isWrite = 36)

/-- R22, R83, R85, R114: every event an instance emits carries its bus address, its backlight bit as it stands, and the
read/write bit at 0. -/
def Obligations.EmittedEventsCarryAddressAndBacklight : Prop :=
  ∀ (s t : State) (d : Driver) (i : Instr), s.life = .ready d → exec i s = .next t →
    ∃ evs, t.trace = s.trace ++ evs ∧ ∀ e ∈ evs, carries d.busAddr d.bl e

/-! ## The invariant -/

/-- R35, R215: before the first CONSTRUCT nothing is constructed, no fault is recorded and TRACE is empty, and the
invariant holds. -/
def Obligations.ResetMeetsTheInvariant : Prop :=
  Inv Config.cfg State.reset ∧ status State.reset = (.UNCONSTRUCTED, 0) ∧ driverOf State.reset.life = none ∧
    State.reset.trace = []

/-- R21, R22, R27, R50, R62, R222, R230: every step keeps the buffer inside its geometry, GEOM and BUSADDR at legal values,
FAULTCODE in step with LIFE, and TRACE a sequence of waits and whole, well-framed transactions; and so under every CFG. That
the buffer's list stays canonical (offsets rising, no BLANK listed) is about the model's own form
of BUF (log entry 9). -/
def Obligations.StepKeepsTheInvariant : Prop :=
  (∀ s t : State, Inv Config.cfg s → step s = .next t → Inv Config.cfg t) ∧
  ∀ c, ∀ s t : State, Inv c s → stepWith c s = .next t → Inv c t

/-- R222, R62, R116 under every CFG with well-formed masks, whatever its other values: REFRESH always answers, and what it
and INITIALIZE send is well-framed. -/
def Obligations.FramingHoldsUnderEveryCfg : Prop :=
  ∀ (c : Cfg) (d : Driver), MasksWellFormed c →
    framed c (initEvents c d) = true ∧ ∃ evs, refreshEvents c d = some evs ∧ framed c evs = true

/-! ## The display, through the reference receiver (general knowledge, D24, log entry 14) -/

/-- R68, R69, under every CFG with well-formed masks: a receiver in 4-bit mode at a nibble boundary reads a byte frame as
exactly the value and RS that were sent, and is at a nibble boundary with the strobe idle after it. -/
def Obligations.ReceiverReadsBackAByteFrame : Prop :=
  ∀ (c : Cfg) (d : Driver) (v : Byte) (rs : Bool) (r : Receiver), MasksWellFormed c → InStep c r → r.addr = d.busAddr →
    ∃ lines sel, receiveAll c (byteFrame c v rs d) r =
        { receiveValue c { r with latched := r.latched + 2 } v rs with lines := lines, selected := sel } ∧
      lines &&& c.enMask = 0#8

/-- R61: what a REFRESH appends, delivered to a receiver in 4-bit mode at a nibble boundary, leaves BUF[i] at
XLATE_OFF(GEOM, i) for every cell i, and every address outside the map as it was. -/
def Obligations.RefreshFillsTheDisplay : Prop :=
  ∀ (s t : State) (d : Driver) (r : Receiver), s.life = .ready d → exec .refresh s = .next t →
    InStep Config.cfg r → r.addr = d.busAddr →
    ∃ evs, t.trace = s.trace ++ evs ∧
      (∀ i, i < nCells Config.cfg d.geom →
        (receiveAll Config.cfg evs r).ddram (BitVec.ofNat 7 (xlateOffset Config.cfg d.geom i)) =
          Memory.read Config.cfg d.buf i) ∧
      (∀ a : DdramAddr, (∀ i, i < nCells Config.cfg d.geom → xlateOffset Config.cfg d.geom i ≠ a.toNat) →
        (receiveAll Config.cfg evs r).ddram a = r.ddram a) ∧
      InStep Config.cfg (receiveAll Config.cfg evs r)

/-- R134, R218, R71: what an INITIALIZE appends brings a receiver from every state (8-bit, 4-bit, mid-nibble) into 4-bit mode
at a nibble boundary, with a blank display memory, the address counter at 0 and the four settings made. -/
def Obligations.InitializeResynchronizesTheReceiver : Prop :=
  ∀ (s t : State) (d : Driver) (r : Receiver), s.life = .ready d → exec .init s = .next t → r.addr = d.busAddr →
    ∃ evs, t.trace = s.trace ++ evs ∧
      InStep Config.cfg (receiveAll Config.cfg evs r) ∧
      (receiveAll Config.cfg evs r).ac = 0#7 ∧
      (∀ a, (receiveAll Config.cfg evs r).ddram a = 0x20#8) ∧
      (receiveAll Config.cfg evs r).settings =
        { twoLines := true, smallFont := true, increment := true, shift := false,
          displayOn := true, cursor := false, blink := false }
end

