-- ==== Sys2Proof/Laws/Memory.lean ====
section
/-! SUPPORT. The buffer space: a read after a write, and the canonical form under every operation. -/

namespace Sys2Proof.Machine

@[simp] theorem Memory.read_blank (c : Cfg) (a : Nat) : Memory.read c Memory.blank a = c.blank := rfl

/-- A listed byte is read at its offset. -/
@[simp] theorem Memory.read_place_same (c : Cfg) (m : Memory) (a : Nat) (v : Byte) :
    Memory.read c (Memory.place a v m) a = v := by
  induction m with
  | nil => simp [Memory.place, Memory.read]
  | cons x m ih =>
    unfold Memory.place
    split_ifs with h1 h2
    · simp [Memory.read]
    · simp [Memory.read]
    · simp [Memory.read, ih, Ne.symm h2]

/-- Listing a byte changes no other offset. -/
theorem Memory.read_place_other (c : Cfg) (m : Memory) {a b : Nat} (v : Byte) (h : a ≠ b) :
    Memory.read c (Memory.place a v m) b = Memory.read c m b := by
  induction m with
  | nil => simp [Memory.place, Memory.read, h]
  | cons x m ih =>
    unfold Memory.place
    split_ifs with h1 h2
    · simp [Memory.read, h]
    · simp [Memory.read, h, ← h2]
    · simp [Memory.read, ih]

/-- A dropped offset reads as `BLANK`. -/
@[simp] theorem Memory.read_drop_same (c : Cfg) (m : Memory) (a : Nat) :
    Memory.read c (Memory.drop a m) a = c.blank := by
  unfold Memory.drop
  induction m with
  | nil => rfl
  | cons x m ih => by_cases hx : x.1 = a <;> simp [hx, Memory.read, ih]

/-- Dropping changes no other offset. -/
theorem Memory.read_drop_other (c : Cfg) (m : Memory) {a b : Nat} (h : a ≠ b) :
    Memory.read c (Memory.drop a m) b = Memory.read c m b := by
  unfold Memory.drop
  induction m with
  | nil => rfl
  | cons x m ih => by_cases hx : x.1 = a <;> simp [hx, Memory.read, ih, h]

/-- A read after a write: the byte written at its offset, the old byte elsewhere. -/
@[simp] theorem Memory.read_write (c : Cfg) (m : Memory) (a b : Nat) (v : Byte) :
    Memory.read c (Memory.write c m a v) b = if b = a then v else Memory.read c m b := by
  unfold Memory.write
  by_cases h : b = a
  · subst h
    split_ifs <;> simp_all
  · split_ifs <;> simp [Memory.read_place_other, Memory.read_drop_other, Ne.symm h]

/-- What a placed list holds. -/
theorem Memory.mem_place {m : Memory} {a : Nat} {v : Byte} {x : Host.Cell} (h : x ∈ Memory.place a v m) :
    x = (a, v) ∨ x ∈ m := by
  induction m with
  | nil => simpa [Memory.place] using h
  | cons y m ih =>
    obtain ⟨k, w⟩ := y
    simp only [Memory.place] at h
    split_ifs at h with h1 h2
    · simpa using h
    · rcases List.mem_cons.1 h with h | h
      · exact .inl h
      · exact .inr (List.mem_cons_of_mem _ h)
    · rcases List.mem_cons.1 h with h | h
      · exact .inr (by simp [h])
      · exact (ih h).imp id (List.mem_cons_of_mem _)

theorem Memory.place_rising {m : Memory} (a : Nat) (v : Byte) (h : m.Pairwise fun x y => x.1 < y.1) :
    (Memory.place a v m).Pairwise fun x y => x.1 < y.1 := by
  induction m with
  | nil => simp [Memory.place]
  | cons y m ih =>
    obtain ⟨k, w⟩ := y
    obtain ⟨hk, hm⟩ := List.pairwise_cons.1 h
    unfold Memory.place
    split_ifs with h1 h2
    · refine List.pairwise_cons.2 ⟨fun x hx => ?_, h⟩
      rcases List.mem_cons.1 hx with rfl | hx
      · exact h1
      · exact lt_trans h1 (hk x hx)
    · subst h2
      exact List.pairwise_cons.2 ⟨hk, hm⟩
    · refine List.pairwise_cons.2 ⟨fun x hx => ?_, ih hm⟩
      rcases Memory.mem_place hx with rfl | hx
      · show k < a
        omega
      · exact hk x hx

theorem Memory.wf_blank (c : Cfg) : Memory.wf c Memory.blank := ⟨List.Pairwise.nil, by simp [Memory.blank]⟩

/-- A write keeps the canonical form. -/
theorem Memory.wf_write {c : Cfg} {m : Memory} (a : Nat) (v : Byte) (h : Memory.wf c m) :
    Memory.wf c (Memory.write c m a v) := by
  unfold Memory.write
  split_ifs with hv
  · exact ⟨h.1.filter _, fun x hx => h.2 x (List.mem_of_mem_filter hx)⟩
  · refine ⟨Memory.place_rising a v h.1, fun x hx => ?_⟩
    rcases Memory.mem_place hx with rfl | hx
    · exact hv
    · exact h.2 x hx

theorem Memory.within_blank (n : Nat) : Memory.within n Memory.blank := by simp [Memory.blank]

/-- A write to an existing offset lists only existing offsets. -/
theorem Memory.within_write {c : Cfg} {m : Memory} {n a : Nat} (v : Byte) (h : Memory.within n m) (ha : a < n) :
    Memory.within n (Memory.write c m a v) := by
  intro x hx
  unfold Memory.write at hx
  split_ifs at hx
  · exact h x (List.mem_of_mem_filter hx)
  · rcases Memory.mem_place hx with rfl | hx
    · exact ha
    · exact h x hx

theorem loadCell_eq (c : Cfg) (d : Driver) {i : Nat} (h : i < nCells c d.geom) :
    loadCell c d i = some (Memory.read c d.buf i) := by simp [loadCell, h]

theorem loadCell_outside (c : Cfg) (d : Driver) {i : Nat} (h : nCells c d.geom ≤ i) : loadCell c d i = none := by
  simp [loadCell, Nat.not_lt.2 h]

theorem storeCell_eq (c : Cfg) (g : Geom) (m : Memory) {i : Nat} (v : Byte) (h : i < nCells c g) :
    storeCell c g m i v = some (Memory.write c m i v) := by simp [storeCell, h]

/-- Everything a store can do: it answers only inside the buffer space, and then writes that cell. -/
theorem storeCell_some {c : Cfg} {g : Geom} {m m' : Memory} {i : Nat} {v : Byte} (h : storeCell c g m i v = some m') :
    i < nCells c g ∧ m' = Memory.write c m i v := by
  unfold storeCell at h
  split_ifs at h with hi
  exact ⟨hi, (Option.some.inj h).symm⟩

end Sys2Proof.Machine
end

