-- ==== Sys2Proof/Laws/Buffer.lean ====
section
/-! SUPPORT. PRINT writes only cells that exist, so its loop always answers; and what the loop keeps. -/

namespace Sys2Proof.Machine

/-- A cell of the grid lies in the buffer space. -/
theorem cellOffset_lt {c : Cfg} {g : Geom} {row col : Nat} (hr : row < rows c g) (hc : col < cols c g) :
    cellOffset c g row col < nCells c g := by
  have : (row + 1) * cols c g ≤ rows c g * cols c g := Nat.mul_le_mul_right _ hr
  rw [cellOffset, nCells, Nat.mul_comm (cols c g)]
  linarith

/-- The loop of PRINT on a row of the grid answers. -/
theorem printRun_some {c : Cfg} {g : Geom} {row : Nat} (hr : row < rows c g) (text : List Byte) (col : Nat)
    (m : Memory) : ∃ m', printRun c g row col text m = some m' := by
  induction text generalizing col m with
  | nil => exact ⟨m, rfl⟩
  | cons b rest ih =>
    by_cases hb : col < cols c g ∧ b ≠ c.terminator
    · obtain ⟨m', hm⟩ := ih (col + 1) (Memory.write c m (cellOffset c g row col) b)
      exact ⟨m', by simp only [printRun, if_pos hb, storeCell_eq c g m b (cellOffset_lt hr hb.1)]; exact hm⟩
    · exact ⟨m, by simp only [printRun, if_neg hb]⟩

/-- What one more turn of the loop of PRINT does. -/
theorem printRun_cons {c : Cfg} {g : Geom} {row col : Nat} {b : Byte} {rest : List Byte} {m m' : Memory}
    (h : printRun c g row col (b :: rest) m = some m') :
    (cellOffset c g row col < nCells c g ∧ col < cols c g ∧ b ≠ c.terminator ∧
      printRun c g row (col + 1) rest (Memory.write c m (cellOffset c g row col) b) = some m') ∨
    (¬ (col < cols c g ∧ b ≠ c.terminator) ∧ m' = m) := by
  rw [printRun] at h
  split_ifs at h with hb
  · obtain ⟨m1, h1, h2⟩ := Option.bind_eq_some_iff.1 h
    obtain ⟨hi, rfl⟩ := storeCell_some h1
    exact .inl ⟨hi, hb.1, hb.2, h2⟩
  · exact .inr ⟨hb, (Option.some.inj h).symm⟩

/-- The loop of PRINT keeps the canonical form and lists only cells that exist. -/
theorem printRun_ok {c : Cfg} {g : Geom} {row : Nat} {text : List Byte} {col : Nat} {m m' : Memory}
    (h : printRun c g row col text m = some m') (hw : Memory.wf c m) (hn : Memory.within (nCells c g) m) :
    Memory.wf c m' ∧ Memory.within (nCells c g) m' := by
  induction text generalizing col m with
  | nil => cases h; exact ⟨hw, hn⟩
  | cons b rest ih =>
    rcases printRun_cons h with ⟨hi, -, -, h⟩ | ⟨-, rfl⟩
    · exact ih h (Memory.wf_write _ _ hw) (Memory.within_write _ hn hi)
    · exact ⟨hw, hn⟩

end Sys2Proof.Machine
end

