-- ==== Sys2Proof/Laws/State.lean ====
section
/-! SUPPORT. What each named update leaves in each field of State: one lemma a field, true by rfl. -/

namespace Sys2Proof.Machine

@[simp] theorem emit_life (evs : List Event) (s : State) : (emit evs s).life = s.life := rfl
@[simp] theorem emit_faultCode (evs : List Event) (s : State) : (emit evs s).faultCode = s.faultCode := rfl
@[simp] theorem emit_trace (evs : List Event) (s : State) : (emit evs s).trace = s.trace ++ evs := rfl
@[simp] theorem emit_port (evs : List Event) (s : State) : (emit evs s).port = s.port := rfl
@[simp] theorem emit_reply (evs : List Event) (s : State) : (emit evs s).reply = s.reply := rfl

@[simp] theorem answer_life (r : Reply) (s : State) : (answer r s).life = s.life := rfl
@[simp] theorem answer_faultCode (r : Reply) (s : State) : (answer r s).faultCode = s.faultCode := rfl
@[simp] theorem answer_trace (r : Reply) (s : State) : (answer r s).trace = s.trace := rfl
@[simp] theorem answer_port (r : Reply) (s : State) : (answer r s).port = s.port := rfl
@[simp] theorem answer_reply (r : Reply) (s : State) : (answer r s).reply = some r := rfl

@[simp] theorem setDriver_life (d : Driver) (s : State) : (setDriver d s).life = .ready d := rfl
@[simp] theorem setDriver_faultCode (d : Driver) (s : State) : (setDriver d s).faultCode = s.faultCode := rfl
@[simp] theorem setDriver_trace (d : Driver) (s : State) : (setDriver d s).trace = s.trace := rfl
@[simp] theorem setDriver_port (d : Driver) (s : State) : (setDriver d s).port = s.port := rfl
@[simp] theorem setDriver_reply (d : Driver) (s : State) : (setDriver d s).reply = s.reply := rfl

@[simp] theorem setFaultCode_life (n : Nat) (s : State) : (setFaultCode n s).life = s.life := rfl
@[simp] theorem setFaultCode_faultCode (n : Nat) (s : State) : (setFaultCode n s).faultCode = n := rfl
@[simp] theorem setFaultCode_trace (n : Nat) (s : State) : (setFaultCode n s).trace = s.trace := rfl
@[simp] theorem setFaultCode_port (n : Nat) (s : State) : (setFaultCode n s).port = s.port := rfl
@[simp] theorem setFaultCode_reply (n : Nat) (s : State) : (setFaultCode n s).reply = s.reply := rfl

@[simp] theorem lifeName_unconstructed : lifeName .unconstructed = .UNCONSTRUCTED := rfl
@[simp] theorem lifeName_ready (d : Driver) : lifeName (.ready d) = .READY := rfl
@[simp] theorem lifeName_faulted : lifeName .faulted = .FAULTED := rfl
@[simp] theorem driverOf_unconstructed : driverOf .unconstructed = none := rfl
@[simp] theorem driverOf_ready (d : Driver) : driverOf (.ready d) = some d := rfl
@[simp] theorem driverOf_faulted : driverOf .faulted = none := rfl

/-- The Driver State holds a value in READY and nowhere else (R25). -/
theorem driverOf_eq_some (l : Life) (d : Driver) : driverOf l = some d ↔ l = .ready d := by
  cases l <;> simp

end Sys2Proof.Machine
end

