-- ==== Sys2Proof/Laws/Ops.lean ====
section
/-! SUPPORT. What each shared operation can do, said once. -/

namespace Sys2Proof.Machine

/-- In READY the operation runs. -/
theorem whenReady_ready {s : State} {d : Driver} (op : Driver → Result) (h : s.life = .ready d) :
    whenReady s op = op d := by simp [whenReady, h]

/-- Outside READY the request is turned away. -/
theorem whenReady_notReady {s : State} (op : Driver → Result) (h : driverOf s.life = none) :
    whenReady s op = turnAway .notReady s := by
  unfold whenReady
  split
  · simp_all
  · rfl
  · rfl

/-- Everything the READY check can do. -/
theorem whenReady_cases (s : State) (op : Driver → Result) :
    (∃ d, s.life = .ready d ∧ whenReady s op = op d) ∨
    (driverOf s.life = none ∧ whenReady s op = turnAway .notReady s) := by
  cases h : s.life with
  | ready d => exact .inl ⟨d, rfl, whenReady_ready op h⟩
  | unconstructed => exact .inr ⟨rfl, whenReady_notReady op (by simp [h])⟩
  | faulted => exact .inr ⟨rfl, whenReady_notReady op (by simp [h])⟩

/-- Everything an operation that only emits can do. -/
theorem sends_cases (s : State) (frame : Driver → List Event) :
    (∃ d, s.life = .ready d ∧ sends s frame = .next (answer .ok (emit (frame d) s))) ∨
    (driverOf s.life = none ∧ sends s frame = turnAway .notReady s) := whenReady_cases s _

/-- Under a well-formed CFG the check changes nothing. -/
theorem checked_wellFormed {c : Cfg} (hc : CfgWellFormed c) (r : Result) : checked c r = r := if_pos hc

/-- Under an ill-formed CFG nothing runs. -/
theorem checked_illFormed {c : Cfg} (hc : ¬ CfgWellFormed c) (r : Result) : checked c r = .refused .illFormedCfg :=
  if_neg hc

/-- What answers a next state has passed the check. -/
theorem checked_next {c : Cfg} {r : Result} {t : State} (h : checked c r = .next t) : CfgWellFormed c ∧ r = .next t := by
  unfold checked at h
  split_ifs at h with hc
  exact ⟨hc, h⟩

/-- What a turned-away request leaves: the state, and the reason told to the host. -/
theorem turnAway_next {why : Reason} {s t : State} (h : turnAway why s = .next t) :
    t = { s with reply := some (.refused why) } := by cases h; rfl

/-- What fault entry leaves (R193). -/
theorem raiseFault_next {code : Nat} {info : BitVec 3} {s t : State} (h : raiseFault code info s = .next t) :
    t = { s with life := .faulted, faultCode := code, reply := some (.fault code info) } := by cases h; rfl

/-- What fault return leaves (R194). -/
theorem becomeReady_next {d : Driver} {s t : State} (h : becomeReady d s = .next t) :
    t = { s with life := .ready d, faultCode := 0, reply := some .ok } := by cases h; rfl

end Sys2Proof.Machine
end

