-- ==== Sys2Proof/Laws/Framer.lean ====
section
/-! SUPPORT. The framer: sizes of frames, the shape of a triple, and how well-framed traces join. -/

namespace Sys2Proof.Machine

open Sys2Proof.Safety

@[simp] theorem length_nibbleFrame (c : Cfg) (n : Byte) (rs : Bool) (d : Driver) :
    (nibbleFrame c n rs d).length = 5 := rfl

@[simp] theorem length_byteFrame (c : Cfg) (v : Byte) (rs : Bool) (d : Driver) :
    (byteFrame c v rs d).length = 8 := rfl

/-- A nibble frame, event by event (R88). -/
theorem nibbleFrame_eq (c : Cfg) (n : Byte) (rs : Bool) (d : Driver) :
    nibbleFrame c n rs d =
      [.beginTx d.busAddr, .write (baseByte c n rs d.bl), .write (baseByte c n rs d.bl ||| c.enMask),
       .write (baseByte c n rs d.bl), .endTx] := rfl

/-- A byte frame, event by event (R89). -/
theorem byteFrame_eq (c : Cfg) (v : Byte) (rs : Bool) (d : Driver) :
    byteFrame c v rs d =
      [.beginTx d.busAddr,
       .write (baseByte c (hiPayload c v) rs d.bl), .write (baseByte c (hiPayload c v) rs d.bl ||| c.enMask),
       .write (baseByte c (hiPayload c v) rs d.bl),
       .write (baseByte c (loPayload c v) rs d.bl), .write (baseByte c (loPayload c v) rs d.bl ||| c.enMask),
       .write (baseByte c (loPayload c v) rs d.bl), .endTx] := rfl

/-- A payload is masked once or twice alike. -/
theorem baseByte_masked (c : Cfg) (v : Byte) (rs bl : Bool) :
    baseByte c (v &&& c.nibbleMask) rs bl = baseByte c v rs bl := by
  simp [baseByte, BitVec.and_assoc]

/-- A single bit below the payload is one of four. -/
theorem oneBit_low {m : Byte} (h : oneBit m) (hp : m &&& 0xF0#8 = 0#8) : m ∈ [1#8, 2#8, 4#8, 8#8] := by
  revert h hp; revert m; decide

/-- Four different bits below the payload: what the base of a triple has under each of them. -/
theorem base_bits :
    ∀ R ∈ [1#8, 2#8, 4#8, 8#8], ∀ W ∈ [1#8, 2#8, 4#8, 8#8], ∀ E ∈ [1#8, 2#8, 4#8, 8#8], ∀ B ∈ [1#8, 2#8, 4#8, 8#8],
    [R, W, E, B].Nodup → ∀ (v : Nibble) (rs bl : Bool),
      let b : Byte := (v ++ 0#4) ||| (if rs then R else 0#8) ||| (if bl then B else 0#8)
      b &&& E = 0#8 ∧ b &&& W = 0#8 ∧ b &&& ~~~0xF0#8 = (if rs then R else 0#8) ||| (if bl then B else 0#8) := by
  decide +kernel

/-- Under well-formed masks the base of a triple has the strobe and the read/write bit at 0, and outside the payload it
holds RS and backlight alone (R84, R85). -/
theorem baseByte_lines {c : Cfg} (hc : MasksWellFormed c) (n : Byte) (rs bl : Bool) :
    baseByte c n rs bl &&& c.enMask = 0#8 ∧ baseByte c n rs bl &&& c.rwMask = 0#8 ∧
    baseByte c n rs bl &&& ~~~c.nibbleMask = rsBits c rs ||| blBits c bl := by
  obtain ⟨hn, hm, hd⟩ := hc
  rw [hn] at hm
  have low : ∀ m ∈ [c.rsMask, c.rwMask, c.enMask, c.blMask], m ∈ [1#8, 2#8, 4#8, 8#8] :=
    fun m h => oneBit_low (hm m h).1 (hm m h).2
  have payload : ∀ n : Byte, n &&& 0xF0#8 = hiNibble n ++ 0#4 := by decide
  have := base_bits c.rsMask (low _ (by simp)) c.rwMask (low _ (by simp)) c.enMask (low _ (by simp)) c.blMask
    (low _ (by simp)) hd (hiNibble n) rs bl
  simpa only [baseByte, rsBits, blBits, hn, payload] using this

/-- A triple is one strobe pulse (R116). -/
theorem pulse_base {c : Cfg} (hc : MasksWellFormed c) (n : Byte) (rs bl : Bool) :
    pulse c (baseByte c n rs bl) (baseByte c n rs bl ||| c.enMask) (baseByte c n rs bl) = true := by
  simp [pulse, baseByte_lines hc]

/-- Well-framed traces join. -/
theorem framed_append (c : Cfg) (xs ys : List Event) (h : framed c xs = true) :
    framed c (xs ++ ys) = framed c ys := by
  induction xs using framed.induct with
  | case1 => rfl
  | case2 ms rest ih => simpa [framed] using ih (by simpa [framed] using h)
  | case3 a a0 a1 a2 rest ih =>
    simp only [framed, Bool.and_eq_true] at h
    simp [framed, h.1, ih h.2]
  | case4 a a0 a1 a2 b0 b1 b2 rest ih =>
    simp only [framed, Bool.and_eq_true] at h
    simp [framed, h.1.1.1, h.1.1.2, h.1.2, ih h.2]
  | case5 xs h1 h2 h3 h4 => simp_all [framed]

theorem framed_nibbleFrame {c : Cfg} (hc : MasksWellFormed c) (n : Byte) (rs : Bool) (d : Driver) :
    framed c (nibbleFrame c n rs d) = true := by
  simp [nibbleFrame_eq, framed, pulse_base hc]

theorem framed_byteFrame {c : Cfg} (hc : MasksWellFormed c) (v : Byte) (rs : Bool) (d : Driver) :
    framed c (byteFrame c v rs d) = true := by
  simp [byteFrame_eq, framed, pulse_base hc, sameControl, baseByte_lines hc]

/-- Well-framed pieces make a well-framed trace. -/
theorem framed_flatMap {α : Type} {c : Cfg} (l : List α) (f : α → List Event) (h : ∀ a ∈ l, framed c (f a) = true) :
    framed c (l.flatMap f) = true := by
  induction l with
  | nil => rfl
  | cons a l ih =>
    rw [List.flatMap_cons, framed_append _ _ _ (h a (by simp))]
    exact ih fun b hb => h b (by simp [hb])

end Sys2Proof.Machine
end

