-- ==== Sys2Proof/Laws/Parametric.lean ====
section
/-! SUPPORT. `exec` is `meaningWith` under the default CFG, and that CFG passes the check of R6. -/

namespace Sys2Proof.Machine

/-- The default CFG is well-formed (R6). -/
theorem cfg_wellFormed : CfgWellFormed Config.cfg := by decide

/-- A lemma about every CFG holds of `exec`. -/
theorem exec_eq_meaningWith (i : Instr) (s : State) : exec i s = meaningWith Config.cfg i s := by cases i <;> rfl

end Sys2Proof.Machine
end

