-- ==== Sys2Proof/Laws/Translator.lean ====
section
/-! SUPPORT. REFRESH reads only cells that exist, so it always answers, with the data frames of each row after its
address-set. -/

namespace Sys2Proof.Machine

/-- The data frames of the `n` cells from offset `off` on. -/
def cellFrames (c : Cfg) (d : Driver) (off n : Nat) : List Event :=
  (List.range n).flatMap fun k => dataFrame c (Memory.read c d.buf (off + k)) d

/-- The frames of logical row `r` (R152). -/
def rowFrames (c : Cfg) (d : Driver) (r : Nat) : List Event :=
  addressFrame c (BitVec.ofNat 7 (segmentBase c d.geom r)) d ++ cellFrames c d (r * cols c d.geom) (cols c d.geom)

theorem cellFrames_succ (c : Cfg) (d : Driver) (off n : Nat) :
    cellFrames c d off (n + 1) = dataFrame c (Memory.read c d.buf off) d ++ cellFrames c d (off + 1) n := by
  simp [cellFrames, List.range_succ_eq_map, List.flatMap_map, Nat.add_assoc, Nat.add_comm 1]

/-- A run of cells inside the buffer space answers. -/
theorem dataRun_eq (c : Cfg) (d : Driver) (n off : Nat) (h : off + n ≤ nCells c d.geom) :
    dataRun c d off n = some (cellFrames c d off n) := by
  induction n generalizing off with
  | zero => rfl
  | succ n ih =>
    rw [dataRun, loadCell_eq c d (by omega), ih (off + 1) (by omega), cellFrames_succ]
    rfl

/-- The rows from `r` on, where `k` rows are left. -/
theorem segmentRun_rows (c : Cfg) (d : Driver) (k r : Nat) (h : r + k ≤ rows c d.geom) :
    segmentRun c d (r * cols c d.geom)
        ((List.range' r k).map fun s => ⟨BitVec.ofNat 7 (segmentBase c d.geom s), cols c d.geom⟩) =
      some ((List.range' r k).flatMap (rowFrames c d)) := by
  induction k generalizing r with
  | zero => rfl
  | succ k ih =>
    have hr : r * cols c d.geom + cols c d.geom ≤ nCells c d.geom := by
      have : (r + 1) * cols c d.geom ≤ rows c d.geom * cols c d.geom := Nat.mul_le_mul_right _ (by omega)
      rw [nCells, Nat.mul_comm (cols c d.geom)]
      linarith
    have := ih (r + 1) (by omega)
    rw [Nat.succ_mul] at this
    simp only [List.range'_succ, List.map_cons, List.flatMap_cons, segmentRun, dataRun_eq c d _ _ hr, this]
    rfl

/-- REFRESH always answers, row by row (R152, R154). -/
theorem refreshEvents_eq (c : Cfg) (d : Driver) :
    refreshEvents c d = some ((List.range (rows c d.geom)).flatMap (rowFrames c d)) := by
  have := segmentRun_rows c d (rows c d.geom) 0 (by omega)
  simpa [refreshEvents, addressMap, List.range_eq_range'] using this

end Sys2Proof.Machine
end

