-- ==== Sys2Proof/Laws/Exec.lean ====
section
/-! SUPPORT. Everything an instruction can do, said once: `Effect c s i t` lists the ways `meaningWith c i s` ends in
`t`. Claims about all instructions are case analyses of it. -/

namespace Sys2Proof.Machine

open Sys2Proof.Safety

/-- The ways an instruction ends in a next state. -/
inductive Effect (c : Cfg) (s : State) : Instr → State → Prop where
  /-- CONSTRUCT with a geometry (R130). -/
  | constructed (code : BitVec 3) (a : BusAddr) (g : Geom) (h : geomOfCode c code = some g) :
      Effect c s (.construct code a) { s with life := .ready (freshDriver g a), faultCode := 0, reply := some .ok }
  /-- CONSTRUCT without one (R193). -/
  | faulted (code : BitVec 3) (a : BusAddr) (h : geomOfCode c code = none) :
      Effect c s (.construct code a)
        { s with life := .faulted, faultCode := c.faultUnsupportedGeometry,
                 reply := some (.fault c.faultUnsupportedGeometry code) }
  /-- A reserved selector (R98). -/
  | reserved (i : Instr) (h : i = .reserved6 ∨ i = .reserved7) :
      Effect c s i { s with reply := some (.refused .reservedOp) }
  /-- TRIPLE (R110). -/
  | tripled (n : Byte) (rs bl : Bool) :
      Effect c s (.triple n rs bl) { s with reply := some (.value (tripleBytes c n rs bl)) }
  /-- BUSBYTE (R81). -/
  | assembled (d : Nibble) (bl en rs : Bool) :
      Effect c s (.busByte d bl en rs) { s with reply := some (.value [assembleBusByte c d bl en rs]) }
  /-- Any operation outside READY (R195, log entry 7). -/
  | notReady (i : Instr) (hi : needsReady i = true ∨ sendsFrame i = true) (h : driverOf s.life = none) :
      Effect c s i { s with reply := some (.refused .notReady) }
  /-- CLEAR (R170). -/
  | cleared (d : Driver) (h : s.life = .ready d) :
      Effect c s .clear { s with life := .ready { d with buf := Memory.blank }, reply := some .ok }
  /-- PRINT inside the grid (R171). -/
  | printed (d : Driver) (row col : Byte) (text : List Byte) (m : Memory) (h : s.life = .ready d)
      (hg : inGrid c d.geom row col = true)
      (hm : printRun c d.geom row.toNat col.toNat text d.buf = some m) :
      Effect c s (.print row col text) { s with life := .ready { d with buf := m }, reply := some .ok }
  /-- PRINT outside the grid (R172). -/
  | ignored (d : Driver) (row col : Byte) (text : List Byte) (h : s.life = .ready d)
      (hg : inGrid c d.geom row col = false) :
      Effect c s (.print row col text) { s with reply := some .ok }
  /-- BACKLIGHT (R176). -/
  | lit (d : Driver) (on : Bool) (h : s.life = .ready d) :
      Effect c s (.backlight on) { s with life := .ready { d with bl := on }, reply := some .ok }
  /-- REFRESH (R152). -/
  | refreshed (d : Driver) (h : s.life = .ready d) :
      Effect c s .refresh { s with
        trace := s.trace ++ (List.range (rows c d.geom)).flatMap (rowFrames c d), reply := some .ok }
  /-- INITIALIZE (R133). -/
  | scripted (d : Driver) (h : s.life = .ready d) :
      Effect c s .init { s with trace := s.trace ++ initEvents c d, reply := some .ok }
  /-- One nibble frame (R111, R99). -/
  | nibbleSent (i : Instr) (d : Driver) (n : Byte) (rs : Bool) (hi : sendsFrame i = true) (h : s.life = .ready d) :
      Effect c s i { s with trace := s.trace ++ nibbleFrame c n rs d, reply := some .ok }
  /-- One byte frame (R112, R150, R151, R99). -/
  | byteSent (i : Instr) (d : Driver) (v : Byte) (rs : Bool) (hi : sendsFrame i = true) (h : s.life = .ready d) :
      Effect c s i { s with trace := s.trace ++ byteFrame c v rs d, reply := some .ok }

/-- What a nibble-frame operation can do. -/
theorem nibbleSends_effect {c : Cfg} {s t : State} {i : Instr} {n : Byte} {rs : Bool} (hi : sendsFrame i = true)
    (h : sends s (nibbleFrame c n rs) = .next t) : Effect c s i t := by
  rcases sends_cases s (nibbleFrame c n rs) with ⟨d, hd, he⟩ | ⟨hd, he⟩ <;> rw [he] at h <;> cases h
  · exact .nibbleSent i d n rs hi hd
  · exact .notReady i (.inr hi) hd

/-- What a byte-frame operation can do. -/
theorem byteSends_effect {c : Cfg} {s t : State} {i : Instr} {v : Byte} {rs : Bool} (hi : sendsFrame i = true)
    (h : sends s (byteFrame c v rs) = .next t) : Effect c s i t := by
  rcases sends_cases s (byteFrame c v rs) with ⟨d, hd, he⟩ | ⟨hd, he⟩ <;> rw [he] at h <;> cases h
  · exact .byteSent i d v rs hi hd
  · exact .notReady i (.inr hi) hd

/-- Every way an instruction ends in a next state. -/
theorem meaningWith_effect {c : Cfg} {s t : State} {i : Instr} (h : meaningWith c i s = .next t) : Effect c s i t := by
  cases i with
  | construct code a =>
    simp only [meaningWith, constructOp] at h
    split at h <;> cases h
    · exact .constructed code a _ ‹_›
    · exact .faulted code a ‹_›
  | init =>
    rcases sends_cases s (initEvents c) with ⟨d, hd, he⟩ | ⟨hd, he⟩ <;>
      rw [meaningWith, initOp, he] at h <;> cases h
    · exact .scripted d hd
    · exact .notReady _ (.inl rfl) hd
  | clear =>
    rcases whenReady_cases s (fun d => done (setDriver { d with buf := Memory.blank } s)) with ⟨d, hd, he⟩ | ⟨hd, he⟩ <;>
      rw [meaningWith, clearOp, he] at h <;> cases h
    · exact .cleared d hd
    · exact .notReady _ (.inl rfl) hd
  | print row col text =>
    cases hl : driverOf s.life with
    | none =>
      rw [meaningWith, printOp, whenReady_notReady _ hl] at h
      cases h
      exact .notReady _ (.inl rfl) hl
    | some d =>
      have hd := (driverOf_eq_some _ _).1 hl
      simp only [meaningWith, printOp, whenReady_ready _ hd] at h
      split_ifs at h with hg
      · split at h <;> cases h
        exact .printed d row col text _ hd hg ‹_›
      · cases h
        exact .ignored d row col text hd (by simpa using hg)
  | refresh =>
    cases hl : driverOf s.life with
    | none =>
      rw [meaningWith, refreshOp, whenReady_notReady _ hl] at h
      cases h
      exact .notReady _ (.inl rfl) hl
    | some d =>
      have hd := (driverOf_eq_some _ _).1 hl
      simp only [meaningWith, refreshOp, whenReady_ready _ hd, refreshEvents_eq] at h
      cases h
      exact .refreshed d hd
  | backlight on =>
    rcases whenReady_cases s (fun d => done (setDriver { d with bl := on } s)) with ⟨d, hd, he⟩ | ⟨hd, he⟩ <;>
      rw [meaningWith, backlightOp, he] at h <;> cases h
    · exact .lit d on hd
    · exact .notReady _ (.inl rfl) hd
  | reserved6 => cases h; exact .reserved _ (.inl rfl)
  | reserved7 => cases h; exact .reserved _ (.inr rfl)
  | triple n rs bl => cases h; exact .tripled n rs bl
  | busByte d bl en rs => cases h; exact .assembled d bl en rs
  | nibbleWrite n rs => exact nibbleSends_effect rfl h
  | init8bit x => exact nibbleSends_effect rfl h
  | init4bit x => exact nibbleSends_effect rfl h
  | byteWrite v rs => exact byteSends_effect rfl h
  | addressSet a => exact byteSends_effect rfl h
  | dataWrite v => exact byteSends_effect rfl h
  | functionSet => exact byteSends_effect rfl h
  | entryMode => exact byteSends_effect rfl h
  | displayOn => exact byteSends_effect rfl h
  | clearDisplay => exact byteSends_effect rfl h
  | setDdramAddr a => exact byteSends_effect rfl h
  | data v => exact byteSends_effect rfl h

/-- The same for the default CFG. -/
theorem exec_effect {s t : State} {i : Instr} (h : exec i s = .next t) : Effect Config.cfg s i t :=
  meaningWith_effect (by rwa [← exec_eq_meaningWith])

end Sys2Proof.Machine
end

