-- ==== Sys2Proof/Laws/PerInstr.lean ====
section
/-! SUPPORT. For every instruction: the first byte of its words carries the fixed bits of its row of
spec/opcode_table.json (the row's mask and match). -/

namespace Sys2Proof.Laws.TableRow

/-- The row's mask and match on the first byte. -/
def fixedBits : Instr → Byte × Byte
  | .construct _ _ => (0x07#8, 0#8)
  | .init => (0x07#8, 1#8)
  | .clear => (0x07#8, 2#8)
  | .print _ _ _ => (0x07#8, 3#8)
  | .refresh => (0x07#8, 4#8)
  | .backlight _ => (0x07#8, 5#8)
  | .reserved6 => (0x07#8, 6#8)
  | .reserved7 => (0x07#8, 7#8)
  | .triple _ _ _ => (0x06#8, 0x00#8)
  | .nibbleWrite _ _ | .byteWrite _ _ | .dataWrite _ | .data _ => (0x00#8, 0x00#8)
  | .addressSet _ | .setDdramAddr _ => (0x80#8, 0x80#8)
  | .init8bit _ => (0xF0#8, 0x30#8)
  | .init4bit _ => (0xF0#8, 0x20#8)
  | .functionSet => (0xFF#8, 0x28#8)
  | .entryMode => (0xFF#8, 0x06#8)
  | .displayOn => (0xFF#8, 0x0C#8)
  | .clearDisplay => (0xFF#8, 0x01#8)
  | .busByte _ _ _ _ => (0x02#8, 0x00#8)

/-- The first byte of the encoding has the row's fixed bits. -/
def Statement (i : Instr) : Prop :=
  ∃ b rest, (encode i).bytes = b :: rest ∧ b &&& (fixedBits i).1 = (fixedBits i).2

/-- The bus byte's bit 1 is 0 whatever its fields. -/
theorem busByteWord_rw (d : Nibble) (bl en rs : Bool) : busByteWord Config.cfg d bl en rs &&& 0x02#8 = 0x00#8 := by
  revert d bl en rs; decide

/-- The base word of a triple has bits 2 and 1 at 0. -/
theorem tripleWord_idle (n : Byte) (rs bl : Bool) : tripleWord Config.cfg n rs bl &&& 0x06#8 = 0x00#8 := by
  revert n rs bl; decide

/-- The opcode bit of an address-set. -/
theorem addressWord_opcode (a : DdramAddr) : addressWord Config.cfg a &&& 0x80#8 = 0x80#8 := by revert a; decide

theorem construct (geom : BitVec 3) (busaddr : BusAddr) : Statement (.construct geom busaddr) := ⟨_, _, rfl, by simp [fixedBits]⟩
theorem init : Statement .init := ⟨_, _, rfl, by decide⟩
theorem clear : Statement .clear := ⟨_, _, rfl, by decide⟩
theorem print (row col : Byte) (text : List Byte) : Statement (.print row col text) := ⟨_, _, rfl, by simp [fixedBits]⟩
theorem refresh : Statement .refresh := ⟨_, _, rfl, by decide⟩
theorem backlight (on : Bool) : Statement (.backlight on) := ⟨_, _, rfl, by simp [fixedBits]⟩
theorem reserved6 : Statement .reserved6 := ⟨_, _, rfl, by decide⟩
theorem reserved7 : Statement .reserved7 := ⟨_, _, rfl, by decide⟩
theorem triple (n : Byte) (rs bl : Bool) : Statement (.triple n rs bl) := ⟨_, _, rfl, tripleWord_idle _ _ _⟩
theorem nibbleWrite (n : Byte) (rs : Bool) : Statement (.nibbleWrite n rs) := ⟨_, _, rfl, BitVec.and_zero⟩
theorem byteWrite (v : Byte) (rs : Bool) : Statement (.byteWrite v rs) := ⟨_, _, rfl, BitVec.and_zero⟩
theorem addressSet (a : DdramAddr) : Statement (.addressSet a) := ⟨_, _, rfl, addressWord_opcode a⟩
theorem dataWrite (v : Byte) : Statement (.dataWrite v) := ⟨_, _, rfl, BitVec.and_zero⟩
theorem init8bit (x : Nibble) : Statement (.init8bit x) := ⟨_, _, rfl, by revert x; decide⟩
theorem init4bit (x : Nibble) : Statement (.init4bit x) := ⟨_, _, rfl, by revert x; decide⟩
theorem functionSet : Statement .functionSet := ⟨_, _, rfl, by decide⟩
theorem entryMode : Statement .entryMode := ⟨_, _, rfl, by decide⟩
theorem displayOn : Statement .displayOn := ⟨_, _, rfl, by decide⟩
theorem clearDisplay : Statement .clearDisplay := ⟨_, _, rfl, by decide⟩
theorem setDdramAddr (a : DdramAddr) : Statement (.setDdramAddr a) := ⟨_, _, rfl, addressWord_opcode a⟩
theorem data (v : Byte) : Statement (.data v) := ⟨_, _, rfl, BitVec.and_zero⟩
theorem busByte (d : Nibble) (bl en rs : Bool) : Statement (.busByte d bl en rs) := ⟨_, _, rfl, busByteWord_rw _ _ _ _⟩

end Sys2Proof.Laws.TableRow
end

