-- ==== Sys2Proof/Tests/Slice0.lean ====
section
/-! SUPPORT. The model's own tests. Expected values come from spec/ (the vectors S1 to S10 and V1 to V81 of
95_test_vectors.md, or the words of 30_encoding.md), each named beside its test. The last part holds, for every obligation
with hypotheses, a state and operands that meet them. -/

namespace Sys2Proof.Tests

open Sys2Proof.Machine Sys2Proof.Safety

/-! ## Helpers -/

/-- A READY instance at bus address 0x27 with the given buffer. -/
def readyWith (g : Geom) (bl : Bool) (buf : Memory) : State :=
  { State.reset with life := .ready { geom := g, busAddr := 0x27#7, bl := bl, buf := buf } }

/-- The same with a blank buffer. -/
def ready (g : Geom) (bl : Bool) : State := readyWith g bl []

/-- The state after a fault (V71). -/
def broken : State := { State.reset with life := .faulted, faultCode := 1 }

/-- The next state of an instruction, if it has one. -/
def after (i : Instr) (s : State) : Option State :=
  match exec i s with
  | .next t => some t
  | .fault _ | .refused _ => none

/-- All cells of the buffer, offset 0 first. -/
def cellsOf (s : State) : List Byte :=
  match s.life with
  | .ready d => (List.range (nCells Config.cfg d.geom)).map (Memory.read Config.cfg d.buf)
  | .unconstructed | .faulted => []

/-- `n` blank cells, the vectors' `20*n`. -/
def blanks (n : Nat) : List Byte := List.replicate n 0x20#8

/-- `[27: b0 b1 ...]`, one transaction. -/
def tx (bytes : List Byte) : List Event := .beginTx 0x27#7 :: (bytes.map .write ++ [.endTx])

/-- What an instruction returns or appends on a READY 16x2 instance: its trace and reply. -/
def sent (i : Instr) (bl : Bool) : Option (List Event × Option Reply) :=
  (after i (ready .g16x2 bl)).map fun t => (t.trace, t.reply)

/-- The buffer and reply after an instruction on a blank READY 16x2 instance. -/
def printed (i : Instr) : Option (List Byte × Option Reply) :=
  (after i (ready .g16x2 false)).map fun t => (cellsOf t, t.reply)

/-! ## Well-formedness -/

/-- TRIPLE's low bits have no place in its words (R92). -/
theorem test_wellFormed_refuses_low_bits : WellFormed (.triple 0x3F#8 false false) = false := by decide

/-- A bus address of more than BUSADDR_BITS bits has no words (R22). -/
theorem test_wellFormed_refuses_long_address :
    WellFormedWith { Config.cfg with busAddrBits := 6 } (.construct 0#3 0x40#7) = false := by decide

theorem test_wellFormed_admits_payload : WellFormed (.triple 0x30#8 false false) = true := by decide

/-- The default CFG is well-formed (R6). -/
theorem test_cfg_wellFormed : CfgWellFormed Config.cfg := by decide

/-! ## Decoding: words written out from R81, R87, R94, R99 -/

theorem test_decode_construct :
    decode ⟨.host, [0b00000000#8, 0b00000101#8, 0b01111111#8]⟩ = .ok (.construct 0b101#3 0b1111111#7) := by decide

theorem test_decode_plain_requests :
    decode ⟨.host, [0b00000001#8]⟩ = .ok .init ∧ decode ⟨.host, [0b00000010#8]⟩ = .ok .clear ∧
    decode ⟨.host, [0b00000100#8]⟩ = .ok .refresh ∧ decode ⟨.host, [0b00000110#8]⟩ = .ok .reserved6 ∧
    decode ⟨.host, [0b00000111#8]⟩ = .ok .reserved7 := by decide

/-- `print("AB", 1, 14)`: R101's syntax puts row before column in the record. -/
theorem test_decode_print :
    decode ⟨.host, [0b00000011#8, 0x01#8, 0x0E#8, 0x41#8, 0x42#8, 0x00#8]⟩ =
      .ok (.print 0x01#8 0x0E#8 [0x41#8, 0x42#8, 0x00#8]) := by decide

theorem test_decode_backlight :
    decode ⟨.host, [0b00000101#8, 0b00000000#8]⟩ = .ok (.backlight false) ∧
    decode ⟨.host, [0b00000101#8, 0b00000001#8]⟩ = .ok (.backlight true) := by decide

/-- `ddddb00r ddddb10r ddddb00r` with payload 1010, backlight 0, RS 1. -/
theorem test_decode_triple :
    decode ⟨.triple, [0b10100001#8, 0b10100101#8, 0b10100001#8]⟩ = .ok (.triple 0b10100000#8 true false) := by decide

theorem test_decode_writes :
    decode ⟨.nibbleWrite, [0b00110000#8, 0b00000000#8]⟩ = .ok (.nibbleWrite 0x30#8 false) ∧
    decode ⟨.byteWrite, [0b10101011#8, 0b00000001#8]⟩ = .ok (.byteWrite 0xAB#8 true) ∧
    decode ⟨.addressSet, [0b11010100#8]⟩ = .ok (.addressSet 0x54#7) ∧
    decode ⟨.dataWrite, [0b01000001#8]⟩ = .ok (.dataWrite 0x41#8) := by decide

theorem test_decode_controller_values :
    decode ⟨.ctrlNibble, [0b00110000#8]⟩ = .ok (.init8bit 0b0000#4) ∧
    decode ⟨.ctrlNibble, [0b00101111#8]⟩ = .ok (.init4bit 0b1111#4) ∧
    decode ⟨.ctrlCommand, [0b00101000#8]⟩ = .ok .functionSet ∧
    decode ⟨.ctrlCommand, [0b00000110#8]⟩ = .ok .entryMode ∧
    decode ⟨.ctrlCommand, [0b00001100#8]⟩ = .ok .displayOn ∧
    decode ⟨.ctrlCommand, [0b00000001#8]⟩ = .ok .clearDisplay ∧
    decode ⟨.ctrlCommand, [0b11000000#8]⟩ = .ok (.setDdramAddr 0b1000000#7) ∧
    decode ⟨.ctrlData, [0b00101000#8]⟩ = .ok (.data 0x28#8) := by decide

/-- `ddddbe0r` with payload 0110, backlight 1, strobe 0, RS 1. -/
theorem test_decode_busByte : decode ⟨.busByte, [0b01101001#8]⟩ = .ok (.busByte 0b0110#4 true false true) := by decide

/-- Bit 1 is never driven to 1 (R85); the table of R99 has no value 0x02 (R100). -/
theorem test_decode_rejects :
    decode ⟨.busByte, [0b00000010#8]⟩ = .error .reservedBits ∧
    decode ⟨.triple, [0x30#8, 0x34#8, 0x38#8]⟩ = .error .tripleMismatch ∧
    decode ⟨.ctrlCommand, [0x02#8]⟩ = .error .noSuchCommand ∧
    decode ⟨.host, [0b101#8]⟩ = .error .truncated ∧
    decode ⟨.host, [0b001#8, 0x00#8]⟩ = .error .trailing := by decide

/-- Words as the opcode table numbers them. -/
theorem test_table_words :
    decodeTableWord 8 0x04 = some .refresh ∧ decodeTableWord 8 0x00 = some (.construct 0#3 0#7) ∧
    decodeTableWord 8 0x28 = some .functionSet ∧ decodeTableWord 8 0x30 = some (.init8bit 0#4) ∧
    decodeTableWord 8 0x80 = some (.setDdramAddr 0#7) ∧
    decodeTableWord 24 0x303430 = some (.triple 0x30#8 false false) := by decide

/-- A placed word is what the next step runs: CONSTRUCT 8x1 at bus address 0 leaves READY. -/
theorem test_fetchWord_runs :
    (match step (State.reset.withFetchWord 8 0x00) with
      | .next t => status t
      | .fault _ | .refused _ => (.FAULTED, 9)) = (.READY, 0) := by decide

/-! ## Lifecycle -/

/-- S1: for all six codes the buffer is COLS*ROWS blank cells. -/
theorem test_construct_blank :
    ([0#3, 1#3, 2#3, 3#3, 4#3, 5#3].map fun g => (after (.construct g 0x27#7) State.reset).map cellsOf) =
      [8, 16, 32, 64, 40, 80].map fun n => some (blanks n) := by decide

/-- V77, V78: a CONSTRUCT in READY resets, or faults with code 1 and leaves no Driver State. -/
theorem test_construct_again :
    after (.construct 5#3 0x3F#7) (readyWith .g16x2 true [(0, 0x41#8)]) =
      some { State.reset with life := .ready ⟨.g20x4, 0x3F#7, false, []⟩, reply := some .ok } ∧
    after (.construct 6#3 0x27#7) (readyWith .g16x2 true [(0, 0x41#8)]) =
      some { State.reset with life := .faulted, faultCode := 1, reply := some (.fault 1 6#3) } := by decide

/-- V30 (a): the whole script. -/
theorem test_init_script :
    sent .init false = some (
      [.wait 50] ++ tx [0x30#8, 0x34#8, 0x30#8] ++ [.wait 5] ++ tx [0x30#8, 0x34#8, 0x30#8] ++ [.wait 5] ++
      tx [0x30#8, 0x34#8, 0x30#8] ++ [.wait 5] ++ tx [0x20#8, 0x24#8, 0x20#8] ++ [.wait 5] ++
      tx [0x20#8, 0x24#8, 0x20#8, 0x80#8, 0x84#8, 0x80#8] ++ [.wait 5] ++
      tx [0x00#8, 0x04#8, 0x00#8, 0x60#8, 0x64#8, 0x60#8] ++ [.wait 5] ++
      tx [0x00#8, 0x04#8, 0x00#8, 0xC0#8, 0xC4#8, 0xC0#8] ++ [.wait 5] ++
      tx [0x00#8, 0x04#8, 0x00#8, 0x10#8, 0x14#8, 0x10#8] ++ [.wait 5], some .ok) := by decide

/-- V73, V74, V75: turned away, nothing else changes. -/
theorem test_not_ready :
    after .init broken = some { broken with reply := some (.refused .notReady) } ∧
    after .refresh State.reset = some { State.reset with reply := some (.refused .notReady) } := by decide

/-- V79. -/
theorem test_reserved :
    after .reserved6 broken = some { broken with reply := some (.refused .reservedOp) } ∧
    after .reserved7 (ready .g8x1 true) = some { ready .g8x1 true with reply := some (.refused .reservedOp) } := by decide

/-! ## Buffer operations -/

/-- S2, V65. -/
theorem test_clear : after .clear (readyWith .g16x2 true [(0, 0x41#8), (31, 0x42#8)]) =
    some { ready .g16x2 true with reply := some .ok } := by decide

/-- V51, V53, V60, V62: row-major offset, the row's end, the terminator, bytes verbatim. -/
theorem test_print_inside :
    printed (.print 1#8 0#8 [0x41#8, 0x42#8, 0x00#8]) = some (blanks 16 ++ [0x41#8, 0x42#8] ++ blanks 14, some .ok) ∧
    printed (.print 0#8 14#8 [0x41#8, 0x42#8, 0x43#8, 0x00#8]) =
      some (blanks 14 ++ [0x41#8, 0x42#8] ++ blanks 16, some .ok) ∧
    printed (.print 0#8 0#8 [0x41#8, 0x00#8, 0x42#8]) = some (0x41#8 :: blanks 31, some .ok) ∧
    printed (.print 0#8 0#8 [0x80#8, 0xFF#8, 0x01#8, 0x00#8]) =
      some ([0x80#8, 0xFF#8, 0x01#8] ++ blanks 29, some .ok) := by decide

/-- V55, V56, V57, V59: outside the grid, and the empty list. -/
theorem test_print_nothing :
    printed (.print 0#8 16#8 [0x41#8, 0x42#8, 0x00#8]) = some (blanks 32, some .ok) ∧
    printed (.print 2#8 0#8 [0x41#8, 0x42#8, 0x00#8]) = some (blanks 32, some .ok) ∧
    printed (.print 255#8 255#8 [0x41#8, 0x42#8, 0x00#8]) = some (blanks 32, some .ok) ∧
    printed (.print 0#8 0#8 []) = some (blanks 32, some .ok) := by decide

/-- V66, V68. -/
theorem test_backlight :
    after (.backlight true) (ready .g16x2 false) = some { ready .g16x2 true with reply := some .ok } ∧
    after (.backlight false) (ready .g16x2 true) = some { ready .g16x2 false with reply := some .ok } := by decide

/-! ## REFRESH and the translator -/

/-- P5, step 3: the 8x1 refresh of "  OK    ". -/
theorem test_refresh_8x1 :
    (after .refresh (readyWith .g8x1 false [(2, 0x4F#8), (3, 0x4B#8)])).map (·.trace) = some (
      tx [0x80#8, 0x84#8, 0x80#8, 0x00#8, 0x04#8, 0x00#8] ++
      (List.replicate 2 (tx [0x21#8, 0x25#8, 0x21#8, 0x01#8, 0x05#8, 0x01#8])).flatten ++
      tx [0x41#8, 0x45#8, 0x41#8, 0xF1#8, 0xF5#8, 0xF1#8] ++ tx [0x41#8, 0x45#8, 0x41#8, 0xB1#8, 0xB5#8, 0xB1#8] ++
      (List.replicate 4 (tx [0x21#8, 0x25#8, 0x21#8, 0x01#8, 0x05#8, 0x01#8])).flatten) := by decide +kernel

/-- S7 with the backlight on (V42): the 16x2 refresh of a blank buffer. -/
theorem test_refresh_16x2 :
    sent .refresh true = some (
      tx [0x88#8, 0x8C#8, 0x88#8, 0x08#8, 0x0C#8, 0x08#8] ++
      (List.replicate 16 (tx [0x29#8, 0x2D#8, 0x29#8, 0x09#8, 0x0D#8, 0x09#8])).flatten ++
      tx [0xC8#8, 0xCC#8, 0xC8#8, 0x08#8, 0x0C#8, 0x08#8] ++
      (List.replicate 16 (tx [0x29#8, 0x2D#8, 0x29#8, 0x09#8, 0x0D#8, 0x09#8])).flatten, some .ok) := by decide +kernel

/-- The bases of the six geometries (V40 to V45), by the command frames' addresses. -/
theorem test_map_bases :
    (Geom.all.map fun g => (addressMap Config.cfg g).map (·.base)) =
      [[0x00#7], [0x00#7, 0x40#7], [0x00#7, 0x40#7], [0x00#7, 0x40#7, 0x10#7, 0x50#7], [0x00#7, 0x40#7],
       [0x00#7, 0x40#7, 0x14#7, 0x54#7]] := by decide

/-- V35 to V38. -/
theorem test_xlate :
    xlateOffset Config.cfg .g16x2 31 = 0x4F ∧ xlateOffset Config.cfg .g16x4 47 = 0x1F ∧
    xlateOffset Config.cfg .g20x4 39 = 0x53 ∧ xlateOffset Config.cfg .g20x4 40 = 0x14 ∧
    xlateOffset Config.cfg .g20x4 79 = 0x67 ∧ xlateOffset Config.cfg .g8x1 7 = 0x07 := by decide

/-- R150, V25 and the 20x4 frame `90 94 90 40 44 40` of V45. -/
theorem test_addressSet :
    sent (.addressSet 0x00#7) false = some (tx [0x80#8, 0x84#8, 0x80#8, 0x00#8, 0x04#8, 0x00#8], some .ok) ∧
    sent (.addressSet 0x14#7) false = some (tx [0x90#8, 0x94#8, 0x90#8, 0x40#8, 0x44#8, 0x40#8], some .ok) := by decide

/-- V21, V23. -/
theorem test_dataWrite :
    sent (.dataWrite 0x41#8) false = some (tx [0x41#8, 0x45#8, 0x41#8, 0x11#8, 0x15#8, 0x11#8], some .ok) ∧
    sent (.dataWrite 0x41#8) true = some (tx [0x49#8, 0x4D#8, 0x49#8, 0x19#8, 0x1D#8, 0x19#8], some .ok) := by decide

/-! ## Another CFG -/

/-- The default with strobe and RS exchanged, two geometries, six address bits and no power-on wait. -/
def otherCfg : Cfg :=
  { Config.cfg with rsMask := 0x04#8, enMask := 0x01#8, nGeom := 2, busAddrBits := 6, tPowerOnMs := 0 }

/-- S8: with any `EN_MASK` e the six bytes are A0, A0|e, A0, B0, B0|e, B0. -/
theorem test_strobe_mask :
    (match execWith otherCfg (.byteWrite 0xAB#8 false) (ready .g16x2 false) with
      | .next t => t.trace
      | .fault _ | .refused _ => []) = tx [0xA0#8, 0xA1#8, 0xA0#8, 0xB0#8, 0xB1#8, 0xB0#8] := by decide

/-- V34: with `T_POWERON_MS` = 0 the first event is `Wait(0)`, still present. -/
theorem test_zero_wait :
    (match execWith otherCfg .init (ready .g16x2 false) with
      | .next t => t.trace.head?
      | .fault _ | .refused _ => none) = some (.wait 0) := by decide

/-- R6 asks that the masks be pairwise different, that no segment pass 0x80, and that `OPC_SET_DDRAM & 0x7F = 0`: a CFG
that fails one of the three is refused before anything runs. -/
theorem test_ill_formed_cfg :
    [{ Config.cfg with rsMask := 0x04#8 }, { Config.cfg with rowBase1 := 0x7F#7 },
      { Config.cfg with opcSetDdram := 0x81#8 }].map (fun c =>
      (match execWith c .clear (ready .g16x2 false), stepWith c State.reset with
        | .refused .illFormedCfg, .refused .illFormedCfg => true
        | _, _ => false)) = [true, true, true] := by decide

/-! ## The framer -/

/-- V3, V5, V7. -/
theorem test_triple :
    sent (.triple 0x30#8 true false) false = some ([], some (.value [0x31#8, 0x35#8, 0x31#8])) ∧
    sent (.triple 0x3F#8 false false) false = some ([], some (.value [0x30#8, 0x34#8, 0x30#8])) ∧
    sent (.triple 0xF0#8 true true) false = some ([], some (.value [0xF9#8, 0xFD#8, 0xF9#8])) := by decide

/-- V9, V12. -/
theorem test_nibbleWrite :
    sent (.nibbleWrite 0x30#8 false) false = some (tx [0x30#8, 0x34#8, 0x30#8], some .ok) ∧
    sent (.nibbleWrite 0x20#8 false) true = some (tx [0x28#8, 0x2C#8, 0x28#8], some .ok) := by decide

/-- V13, V16, V19. -/
theorem test_byteWrite :
    sent (.byteWrite 0xAB#8 false) false = some (tx [0xA0#8, 0xA4#8, 0xA0#8, 0xB0#8, 0xB4#8, 0xB0#8], some .ok) ∧
    sent (.byteWrite 0xAB#8 true) true = some (tx [0xA9#8, 0xAD#8, 0xA9#8, 0xB9#8, 0xBD#8, 0xB9#8], some .ok) ∧
    sent (.byteWrite 0x0F#8 false) false = some (tx [0x00#8, 0x04#8, 0x00#8, 0xF0#8, 0xF4#8, 0xF0#8], some .ok) := by decide

/-- The two nibble values and the four command values in the frames of V30 (a); the low bits are not sent (R92). -/
theorem test_controller_script_values :
    sent (.init8bit 0xF#4) false = some (tx [0x30#8, 0x34#8, 0x30#8], some .ok) ∧
    sent (.init4bit 0x5#4) false = some (tx [0x20#8, 0x24#8, 0x20#8], some .ok) ∧
    sent .functionSet false = some (tx [0x20#8, 0x24#8, 0x20#8, 0x80#8, 0x84#8, 0x80#8], some .ok) ∧
    sent .entryMode false = some (tx [0x00#8, 0x04#8, 0x00#8, 0x60#8, 0x64#8, 0x60#8], some .ok) ∧
    sent .displayOn false = some (tx [0x00#8, 0x04#8, 0x00#8, 0xC0#8, 0xC4#8, 0xC0#8], some .ok) ∧
    sent .clearDisplay false = some (tx [0x00#8, 0x04#8, 0x00#8, 0x10#8, 0x14#8, 0x10#8], some .ok) := by decide

/-- V24, V25: the same byte as data and as address-set. -/
theorem test_data_and_address :
    sent (.data 0x80#8) false = some (tx [0x81#8, 0x85#8, 0x81#8, 0x01#8, 0x05#8, 0x01#8], some .ok) ∧
    sent (.setDdramAddr 0x00#7) false = some (tx [0x80#8, 0x84#8, 0x80#8, 0x00#8, 0x04#8, 0x00#8], some .ok) := by decide

/-- Byte 1 of V7 and byte 0 of V3, from their fields. -/
theorem test_busByte :
    sent (.busByte 0xF#4 true true true) false = some ([], some (.value [0xFD#8])) ∧
    sent (.busByte 0x3#4 false false true) false = some ([], some (.value [0x31#8])) := by decide

/-! ## The reference receiver -/

/-- A receiver in step at bus address 0x27. -/
def listener : Receiver :=
  { addr := 0x27#7, selected := false, lines := 0#8, mode := .fourBit, half := none, latched := 0, ac := 0#7,
    ddram := fun _ => 0x3F#8, settings := default }

/-- P5's display image after step 3. -/
theorem test_receiver_image :
    (after .refresh (readyWith .g8x1 false [(2, 0x4F#8), (3, 0x4B#8)])).map (fun t =>
      ([0x00#7, 0x02#7, 0x03#7, 0x07#7, 0x08#7].map (receiveAll Config.cfg t.trace listener).ddram)) =
      some [0x20#8, 0x4F#8, 0x4B#8, 0x20#8, 0x3F#8] := by decide +kernel

/-! ## Witnesses: for every obligation with hypotheses, a state and operands that meet them -/

/-- READY 20x4 with a cell written. -/
def full : State := readyWith .g20x4 true [(79, 0x5A#8)]

/-- Its driver. -/
def fullDriver : Driver := ⟨.g20x4, 0x27#7, true, [(79, 0x5A#8)]⟩

/-- A state with a request on the port. -/
def asked (r : Request) : State := { full with port := [r] }

/-- For StepRunsTheDecodedRequest: each clause. -/
theorem witness_step_runs :
    ((asked ⟨.host, [0b100#8]⟩).port = [⟨.host, [0b100#8]⟩] ∧ decode ⟨.host, [0b100#8]⟩ = .ok .refresh) ∧
    State.reset.port = [] ∧
    ((asked ⟨.host, []⟩).port = [⟨.host, []⟩] ∧ decode ⟨.host, []⟩ = .error .truncated) := by decide

/-- For DecodeOfEncodeIsTheInstruction: the one constructor whose operands are checked, at its boundaries. -/
theorem witness_wellFormed :
    WellFormed (.triple 0x00#8 true true) = true ∧ WellFormed (.triple 0xF0#8 true true) = true ∧
    WellFormed (.print 255#8 255#8 []) = true := by decide

/-- For DecodedWordsAreTheEncoding. -/
theorem witness_decoded : decode ⟨.busByte, [0xFD#8]⟩ = .ok (.busByte 0xF#4 true true true) := by decide

/-- For ConstructResetsOrFaults: both codes outside the set, and the offsets on either side of the buffer's edge. -/
theorem witness_construct :
    5 < (6#3).toNat ∧ 5 < (7#3).toNat ∧ ¬ 5 < (geomCode .g20x4).toNat ∧
    79 < cols Config.cfg .g20x4 * rows Config.cfg .g20x4 ∧ cols Config.cfg .g20x4 * rows Config.cfg .g20x4 ≤ 80 := by decide

/-- For every obligation about READY: InitializeSendsTheScript, ClearBlanksEveryCell, PrintCopiesTheEffectiveText,
BacklightWritesTheFlag, RefreshSendsRowByRow, NibbleWriteSendsOneTriple, ByteWriteSendsTwoTriples,
AddressSetAndDataWriteSendFrames, ControllerValuesGoOutInTheirFrames. -/
theorem witness_ready : full.life = .ready fullDriver := by decide

/-- For RefusalsChangeNothing and FramesNeedADriver, and the refused half of InitializeSendsTheScript, ClearBlanksEveryCell,
PrintCopiesTheEffectiveText, BacklightWritesTheFlag and RefreshSendsRowByRow: both lifecycle states without a driver. -/
theorem witness_no_driver :
    driverOf State.reset.life = none ∧ driverOf broken.life = none ∧
    (needsReady .init = true ∧ needsReady .clear = true ∧ needsReady (.print 0#8 0#8 []) = true ∧
      needsReady .refresh = true ∧ needsReady (.backlight true) = true) ∧
    sendsFrame (.nibbleWrite 0x30#8 false) = true ∧ sendsFrame (.data 0x41#8) = true := by decide

/-- For RefusalsChangeNothing: each of the two reserved selectors. -/
theorem witness_reserved :
    Instr.reserved6 ∈ [Instr.reserved6, Instr.reserved7] ∧ Instr.reserved7 ∈ [Instr.reserved6, Instr.reserved7] := by decide

/-- For FirstMatchingCheckDecides: one request for each outcome. -/
theorem witness_host_request :
    ((encode .reserved6).layer = .host ∧ ∃ t, exec .reserved6 broken = .next t) ∧
    ((encode .clear).layer = .host ∧ ∃ t, exec .clear broken = .next t) ∧
    ((encode (.construct 6#3 0#7)).layer = .host ∧ ∃ t, exec (.construct 6#3 0#7) full = .next t) ∧
    ((encode (.construct 5#3 0#7)).layer = .host ∧ ∃ t, exec (.construct 5#3 0#7) full = .next t) ∧
    ((encode .clear).layer = .host ∧ ∃ t, exec .clear full = .next t) :=
  ⟨⟨rfl, _, rfl⟩, ⟨rfl, _, rfl⟩, ⟨rfl, _, rfl⟩, ⟨rfl, _, rfl⟩, ⟨rfl, _, rfl⟩⟩

/-- For OnlyConstructLeavesFaulted: each clause, the second on both sides of the set's edge. -/
theorem witness_leaves_faulted :
    driverOf broken.life = none ∧
    (isConstruct .init = false ∧ ∃ t, exec .init broken = .next t) ∧
    (∃ t, exec (.construct 5#3 0#7) broken = .next t) ∧ (∃ t, exec (.construct 6#3 0#7) broken = .next t) :=
  ⟨rfl, ⟨rfl, _, rfl⟩, ⟨_, rfl⟩, ⟨_, rfl⟩⟩

/-- For PrintOutsideTheGridIsANoOp: the first row and the first column outside. -/
theorem witness_outside_grid :
    full.life = .ready fullDriver ∧ rows Config.cfg fullDriver.geom ≤ (4#8).toNat ∧
    cols Config.cfg fullDriver.geom ≤ (20#8).toNat := by decide

/-- For PrintCopiesTheEffectiveText: an address of each clause, at the edges of the text and of the row. -/
theorem witness_print_range :
    let lo := (3#8).toNat * cols Config.cfg fullDriver.geom + (18#8).toNat
    let n := min (cols Config.cfg fullDriver.geom - (18#8).toNat)
      (effectiveText Config.cfg [0x41#8, 0x42#8, 0x43#8, 0x00#8]).length
    lo = 78 ∧ n = 2 ∧ (3#8).toNat < rows Config.cfg fullDriver.geom ∧ (18#8).toNat < cols Config.cfg fullDriver.geom ∧
      ¬ lo ≤ 77 ∧ 79 < lo + n ∧ ¬ 80 < lo + n := by decide

/-- For RefreshCounts, RepeatedRefreshSendsTheSame, RefreshIgnoresInitialize, CellsNeverSteerRefresh. -/
theorem witness_refresh :
    ∃ t u v w, exec .refresh (ready .g8x1 true) = .next t ∧ exec .refresh t = .next u ∧
      exec .init (ready .g8x1 true) = .next v ∧ exec .refresh v = .next w :=
  ⟨_, _, _, _, rfl, rfl, rfl, rfl⟩

/-- For LowerRowsReuseTheBases: a 16x4 instance. -/
theorem witness_four_rows :
    (ready .g16x4 false).life = .ready ⟨.g16x4, 0x27#7, false, []⟩ ∧ ∃ t, exec .refresh (ready .g16x4 false) = .next t :=
  ⟨rfl, _, rfl⟩

/-- For CellsNeverSteerRefresh: a second instance with another buffer. -/
theorem witness_other_buffer :
    (ready .g8x1 true).life = .ready ⟨.g8x1, 0x27#7, true, []⟩ ∧
    (readyWith .g8x1 true [(7, 0x41#8)]).life = .ready { (⟨.g8x1, 0x27#7, true, []⟩ : Driver) with buf := [(7, 0x41#8)] } ∧
    ∃ t, exec .refresh (readyWith .g8x1 true [(7, 0x41#8)]) = .next t :=
  ⟨rfl, rfl, _, rfl⟩

/-- For TranslationIsInjective: the first and the last cell of the largest geometry. -/
theorem witness_cells :
    CfgWellFormed Config.cfg ∧ 0 < nCells Config.cfg .g20x4 ∧ 79 < nCells Config.cfg .g20x4 := by decide

/-- For InitializeIgnoresGeometryAndBuffer: two instances that differ in both. -/
theorem witness_two_instances :
    ∃ t t', (ready .g8x1 true).life = .ready ⟨.g8x1, 0x27#7, true, []⟩ ∧ full.life = .ready fullDriver ∧
      fullDriver.busAddr = 0x27#7 ∧ fullDriver.bl = true ∧
      exec .init (ready .g8x1 true) = .next t ∧ exec .init full = .next t' :=
  ⟨_, _, rfl, rfl, rfl, rfl, rfl, rfl⟩

/-- For the whole-machine rules (OnlyConstructWritesTheFixedRegisters, WritersOfBacklightAndBuffer,
TraceIsAppendOnlyAndNeverRead, BufferOperationsEmitNothing, PortAndReplyAreNeverRead, OnlyInitializeWaits, EventsAreBounded, EmittedEventsCarryAddressAndBacklight): an instruction that meets each clause. -/
theorem witness_whole_machine :
    (isConstruct .refresh = false ∧ ∃ t, exec .refresh (ready .g8x1 true) = .next t) ∧
    ((∀ on, Instr.clear ≠ .backlight on) ∧ ∃ t, exec .clear full = .next t) ∧
    ((∀ row col text, Instr.backlight true ≠ .print row col text) ∧ Instr.backlight true ≠ .clear ∧
      ∃ t, exec (.backlight true) full = .next t) ∧
    (Instr.refresh ≠ .init ∧ lifeName full.life = .READY ∧ ∃ t, exec .init full = .next t) ∧
    (∃ t, exec (.construct 5#3 0x27#7) full = .next t) ∧ ∃ t, exec (.print 0#8 0#8 []) full = .next t :=
  ⟨⟨rfl, _, rfl⟩, ⟨by simp, _, rfl⟩, ⟨by simp, by simp, _, rfl⟩, ⟨by simp, rfl, _, rfl⟩, ⟨_, rfl⟩, _, rfl⟩

/-- For StepKeepsTheInvariant: reset, and a READY state with a written cell and a request waiting. -/
theorem witness_invariant :
    (Inv Config.cfg State.reset ∧ ∃ t, step State.reset = .next t) ∧
    (Inv Config.cfg (asked ⟨.host, [0b010#8]⟩) ∧ ∃ t, step (asked ⟨.host, [0b010#8]⟩) = .next t) := by
  refine ⟨⟨⟨by simp [State.reset], rfl, rfl⟩, _, rfl⟩, ⟨?_, rfl, rfl⟩, _, rfl⟩
  intro d hd
  cases hd
  exact ⟨⟨by decide, by decide⟩, by decide, by decide⟩

/-- For the clauses of ConstructResetsOrFaults, DecodeOfEncodeIsTheInstruction, DecodedWordsAreTheEncoding,
RefreshSendsRowByRow and StepKeepsTheInvariant about every CFG: one that is not the default, with operands on either side
of its bounds. -/
theorem witness_other_cfg :
    CfgWellFormed otherCfg ∧ CommandsApart otherCfg ∧
    (geomCode .g8x2).toNat < otherCfg.nGeom ∧ otherCfg.nGeom ≤ (2#3).toNat ∧
    WellFormedWith otherCfg (.construct 1#3 0x3F#7) = true ∧
    (Inv otherCfg State.reset ∧ ∃ t, stepWith otherCfg State.reset = .next t) ∧
    decodeWith otherCfg ⟨.busByte, [0b01011101#8]⟩ = .ok (.busByte 0b0101#4 true true true) :=
  ⟨by decide, by decide, by decide, by decide, by decide, ⟨⟨by simp [State.reset], rfl, rfl⟩, _, rfl⟩, by decide⟩

/-- For CfgIsCheckedBeforeAnythingRuns: each clause under a CFG that passes, and one that does not. -/
theorem witness_checked_cfg :
    (CfgWellFormed otherCfg ∧ State.reset.port = []) ∧
    ((asked ⟨.host, [0b100#8]⟩).port = [⟨.host, [0b100#8]⟩] ∧ decodeWith otherCfg ⟨.host, [0b100#8]⟩ = .ok .refresh) ∧
    decodeWith otherCfg ⟨.host, []⟩ = .error .truncated ∧
    ¬ CfgWellFormed { Config.cfg with enMask := 0x08#8 } := by decide

/-- For DecodeOfEncodeIsTheInstruction: the default CFG is one of those its second clause speaks of. -/
theorem witness_commands_apart : CfgWellFormed Config.cfg ∧ CommandsApart Config.cfg := by decide

/-- For FramingHoldsUnderEveryCfg: the default masks, and others (strobe and RS exchanged). -/
theorem witness_masks :
    MasksWellFormed Config.cfg ∧ MasksWellFormed { Config.cfg with rsMask := 0x04#8, enMask := 0x01#8 } := by decide

/-- For ReceiverReadsBackAByteFrame and RefreshFillsTheDisplay. -/
theorem witness_receiver :
    MasksWellFormed Config.cfg ∧ InStep Config.cfg listener ∧ listener.addr = fullDriver.busAddr ∧
    (ready .g8x1 true).life = .ready ⟨.g8x1, 0x27#7, true, []⟩ ∧ ∃ t, exec .refresh (ready .g8x1 true) = .next t :=
  ⟨by decide, ⟨rfl, rfl, by unfold StrobeIdle; decide⟩, rfl, rfl, _, rfl⟩

/-- For RefreshFillsTheDisplay: an address the map uses, its last, and one it does not. -/
theorem witness_map_edges :
    0 < nCells Config.cfg .g8x1 ∧ 7 < nCells Config.cfg .g8x1 ∧
    ∀ i, i < nCells Config.cfg .g8x1 → xlateOffset Config.cfg .g8x1 i ≠ (0x08#7).toNat := by decide

/-- For InitializeResynchronizesTheReceiver: a receiver in 8-bit mode and one in the middle of a pair. -/
theorem witness_out_of_step :
    ({ listener with mode := .eightBit } : Receiver).addr = fullDriver.busAddr ∧
    ({ listener with half := some 0x8#4, lines := 0x04#8 } : Receiver).addr = fullDriver.busAddr ∧
    ∃ t, exec .init full = .next t :=
  ⟨rfl, rfl, _, rfl⟩

end Sys2Proof.Tests
end

section
/-! PROOFS. The scope of the model: every instruction ends in a next state, a step runs the decoded request, `exec` and
`step` are the machine under the default CFG, and the CFG is checked before anything runs. -/

namespace Sys2Proof.Machine

/-! ## Every operation ends in a next state (R10, R184, R206) -/

/-- The result is a next state: no fault and no refusal of the model. -/
def Completes (r : Result) : Prop := ∃ t, r = .next t

theorem completes_next (t : State) : Completes (.next t) := ⟨t, rfl⟩

theorem completes_done (s : State) : Completes (done s) := completes_next _

theorem completes_turnAway (why : Reason) (s : State) : Completes (turnAway why s) := completes_next _

/-- Outside READY the request is turned away, so only the operation itself could stop the machine. -/
theorem whenReady_completes {s : State} {op : Driver → Result} (h : ∀ d, Completes (op d)) :
    Completes (whenReady s op) := by
  rcases whenReady_cases s op with ⟨d, -, he⟩ | ⟨-, he⟩ <;> rw [he]
  · exact h d
  · exact completes_turnAway _ s

theorem sends_completes (s : State) (frame : Driver → List Event) : Completes (sends s frame) :=
  whenReady_completes fun _ => completes_done _

/-- A code outside the set is a fault of LCDF (R193), which is a next state. -/
theorem constructOp_completes (c : Cfg) (code : BitVec 3) (a : BusAddr) (s : State) :
    Completes (constructOp c code a s) := by
  unfold constructOp
  cases geomOfCode c code with
  | none => exact completes_next _
  | some g => exact completes_done _

/-- The start row of a text inside the grid is a row of the geometry. -/
theorem row_lt_of_inGrid {c : Cfg} {g : Geom} {row col : Byte} (h : inGrid c g row col = true) :
    row.toNat < rows c g := by
  simp only [inGrid, Bool.and_eq_true, decide_eq_true_eq] at h
  exact h.1

/-- PRINT writes only cells of its row, all of them in the buffer space. -/
theorem printOp_completes (c : Cfg) (row col : Byte) (text : List Byte) (s : State) :
    Completes (printOp c row col text s) := by
  refine whenReady_completes fun d => ?_
  split_ifs with hg
  · obtain ⟨m, hm⟩ := printRun_some (row_lt_of_inGrid hg) text col.toNat d.buf
    rw [hm]
    exact completes_done _
  · exact completes_done s

/-- REFRESH reads only cells of its map, all of them in the buffer space. -/
theorem refreshOp_completes (c : Cfg) (s : State) : Completes (refreshOp c s) := by
  refine whenReady_completes fun d => ?_
  rw [refreshEvents_eq]
  exact completes_done _

theorem meaningWith_completes (c : Cfg) (i : Instr) (s : State) : Completes (meaningWith c i s) := by
  cases i with
  | construct geom busaddr => exact constructOp_completes c geom busaddr s
  | print row col text => exact printOp_completes c row col text s
  | refresh => exact refreshOp_completes c s
  | clear | backlight => exact whenReady_completes fun _ => completes_done _
  | reserved6 | reserved7 => exact completes_turnAway _ s
  | triple | busByte => exact completes_next _
  | init | nibbleWrite | byteWrite | addressSet | dataWrite | init8bit | init4bit | functionSet | entryMode
  | displayOn | clearDisplay | setDdramAddr | data => exact sends_completes s _

/-- Settles O29: only PRINT and REFRESH access the buffer, and both stay inside it. -/
theorem everyInstructionCompletes : Obligations.EveryInstructionCompletes :=
  ⟨fun s i => exec_eq_meaningWith i s ▸ meaningWith_completes Config.cfg i s,
    fun c s i => meaningWith_completes c i s⟩

/-! ## What the next request on the port is -/

theorem fetchWith_idle (c : Cfg) {s : State} (hp : s.port = []) : fetchWith c s = .idle := by
  simp [fetchWith, hp]

theorem fetchWith_run {c : Cfg} {s : State} {r : Request} {rest : List Request} {i : Instr}
    (hp : s.port = r :: rest) (hd : decodeWith c r = .ok i) : fetchWith c s = .run i { s with port := rest } := by
  simp [fetchWith, hp, hd]

theorem fetchWith_malformed {c : Cfg} {s : State} {r : Request} {rest : List Request} {why : DecodeError}
    (hp : s.port = r :: rest) (hd : decodeWith c r = .error why) : fetchWith c s = .malformed why := by
  simp [fetchWith, hp, hd]

/-! ## What `execWith` and `stepWith` do under a CFG that passes the check of R6 -/

theorem execWith_wellFormed {c : Cfg} (hc : CfgWellFormed c) (i : Instr) (s : State) :
    execWith c i s = meaningWith c i s := checked_wellFormed hc _

theorem stepWith_idle {c : Cfg} {s : State} (hc : CfgWellFormed c) (hp : s.port = []) : stepWith c s = .next s := by
  rw [stepWith, checked_wellFormed hc, fetchWith_idle c hp]

theorem stepWith_run {c : Cfg} {s : State} {r : Request} {rest : List Request} {i : Instr} (hc : CfgWellFormed c)
    (hp : s.port = r :: rest) (hd : decodeWith c r = .ok i) :
    stepWith c s = meaningWith c i { s with port := rest } := by
  rw [stepWith, checked_wellFormed hc, fetchWith_run hp hd]

theorem stepWith_malformed {c : Cfg} {s : State} {r : Request} {rest : List Request} {why : DecodeError}
    (hc : CfgWellFormed c) (hp : s.port = r :: rest) (hd : decodeWith c r = .error why) :
    stepWith c s = .refused (.malformedRequest why) := by
  rw [stepWith, checked_wellFormed hc, fetchWith_malformed hp hd]

/-- Settles O45: both sides of the check of R6. -/
theorem cfgIsCheckedBeforeAnythingRuns : Obligations.CfgIsCheckedBeforeAnythingRuns :=
  ⟨fun _ i s hc => execWith_wellFormed hc i s,
    fun _ _ hc hp => stepWith_idle hc hp,
    fun _ _ _ _ _ hc hp hd => stepWith_run hc hp hd,
    fun _ _ _ _ _ hc hp hd => stepWith_malformed hc hp hd,
    fun _ _ _ hc => ⟨checked_illFormed hc _, checked_illFormed hc _⟩,
    cfg_wellFormed⟩

/-! ## `exec` and `step` are the default case -/

theorem exec_eq_execWith (i : Instr) (s : State) : exec i s = execWith Config.cfg i s :=
  (exec_eq_meaningWith i s).trans (execWith_wellFormed cfg_wellFormed i s).symm

/-- The default CFG passes the check, so `step` need not make it. -/
theorem step_eq_stepWith (s : State) : step s = stepWith Config.cfg s := by
  rw [stepWith, checked_wellFormed cfg_wellFormed, step, fetch]
  cases fetchWith Config.cfg s with
  | idle => rfl
  | run i s' => exact exec_eq_meaningWith i s'
  | malformed why => rfl

/-- Settles O44: the default CFG passes the check, and the decoder and the encoder are defined by it. -/
theorem execAndStepAreTheDefaultCase : Obligations.ExecAndStepAreTheDefaultCase :=
  ⟨exec_eq_execWith, step_eq_stepWith, fun _ => rfl, fun _ => rfl⟩

/-- Settles O1: the clauses of `stepWith` at the default CFG. -/
theorem stepRunsTheDecodedRequest : Obligations.StepRunsTheDecodedRequest := by
  refine ⟨fun s r rest i hp hd => ?_, fun s hp => ?_, fun s r rest why hp hd => ?_⟩
  · rw [step_eq_stepWith, stepWith_run cfg_wellFormed hp hd, exec_eq_meaningWith]
  · rw [step_eq_stepWith, stepWith_idle cfg_wellFormed hp]
  · rw [step_eq_stepWith, stepWith_malformed cfg_wellFormed hp hd]

end Sys2Proof.Machine
end

section
/-! PROOFS. The state: which registers an instruction writes, what it adds to TRACE, that none reads TRACE, and the invariant
of every step. `Effect` is read once for the registers (`RegisterChange`) and once for the events (`Frames`); the obligations
are case analyses of those two. -/

namespace Sys2Proof.Machine

open Sys2Proof.Safety

/-! ## What an instruction writes in LIFE, FAULTCODE and the Driver State (R20 to R27, R34) -/

/-- The ways `i` leaves the registers of `s` in `t`. -/
inductive RegisterChange (c : Cfg) (s : State) (i : Instr) (t : State) : Prop where
  | constructed (code : BitVec 3) (a : BusAddr) (g : Geom) (hi : i = .construct code a) (hg : geomOfCode c code = some g)
      (hl : t.life = .ready (freshDriver g a)) (hf : t.faultCode = 0)
  | faulted (code : BitVec 3) (a : BusAddr) (hi : i = .construct code a) (hl : t.life = .faulted)
      (hf : t.faultCode = c.faultUnsupportedGeometry)
  | kept (hl : t.life = s.life) (hf : t.faultCode = s.faultCode)
  /-- CLEAR and PRINT; what they write is a legal buffer if the old one was. -/
  | buffer (d : Driver) (m : Memory) (hi : i = .clear ∨ ∃ row col text, i = .print row col text)
      (hs : s.life = .ready d) (hm : BufferOk c d → BufferOk c { d with buf := m })
      (hl : t.life = .ready { d with buf := m }) (hf : t.faultCode = s.faultCode)
  | backlight (d : Driver) (on : Bool) (hi : i = .backlight on) (hs : s.life = .ready d)
      (hl : t.life = .ready { d with bl := on }) (hf : t.faultCode = s.faultCode)

theorem bufferOk_blank (c : Cfg) (d : Driver) : BufferOk c { d with buf := Memory.blank } :=
  ⟨Memory.wf_blank c, Memory.within_blank _⟩

theorem effect_registers {c : Cfg} {s t : State} {i : Instr} (h : Effect c s i t) : RegisterChange c s i t := by
  cases h with
  | constructed code a g hg => exact .constructed code a g rfl hg rfl rfl
  | faulted code a => exact .faulted code a rfl rfl rfl
  | cleared d hd => exact .buffer d _ (.inl rfl) hd (fun _ => bufferOk_blank c d) rfl rfl
  | printed d row col text m hd _ hm =>
    exact .buffer d m (.inr ⟨row, col, text, rfl⟩) hd (fun hb => printRun_ok hm hb.1 hb.2) rfl rfl
  | lit d on hd => exact .backlight d on rfl hd rfl rfl
  | reserved | tripled | assembled | notReady | ignored | refreshed | scripted | nibbleSent | byteSent =>
    exact .kept rfl rfl

theorem exec_registers {s t : State} {i : Instr} (h : exec i s = .next t) : RegisterChange Config.cfg s i t :=
  effect_registers (exec_effect h)

/-- Settles O30: CLEAR, PRINT and BACKLIGHT write other registers, and nothing else but CONSTRUCT writes any. -/
theorem onlyConstructWritesTheFixedRegisters : Obligations.OnlyConstructWritesTheFixedRegisters := by
  intro s t i h hi
  cases exec_registers h with
  | constructed _ _ _ hc | faulted _ _ hc => simp [hc, isConstruct] at hi
  | kept hl hf => simp [hl, hf]
  | buffer d m _ hs _ hl hf => simp [hs, hl, hf]
  | backlight d on _ hs hl hf => simp [hs, hl, hf]

/-- Settles O31: each of the two registers is written by the instructions named and by no other. -/
theorem writersOfBacklightAndBuffer : Obligations.WritersOfBacklightAndBuffer := by
  intro s t i h hi
  cases exec_registers h with
  | constructed _ _ _ hc | faulted _ _ hc => simp [hc, isConstruct] at hi
  | kept hl => simp [hl]
  | buffer d m hw hs _ hl =>
    refine ⟨fun _ => by simp [hs, hl], fun hclear hprint => ?_⟩
    rcases hw with hw | ⟨row, col, text, hw⟩
    · exact absurd hw hclear
    · exact absurd hw (hprint row col text)
  | backlight d on hw hs hl => exact ⟨fun hn => absurd hw (hn on), fun _ _ => by simp [hs, hl]⟩

/-! ## What an instruction adds to TRACE: waits and whole frames (R62, R88, R89) -/

/-- Waits and whole frames of an LCDF with Driver State `d`, one after the other. -/
inductive Frames (c : Cfg) (d : Driver) : List Event → Prop where
  | nil : Frames c d []
  | wait (ms : Nat) {evs : List Event} (h : Frames c d evs) : Frames c d (.wait ms :: evs)
  | nibble (n : Byte) (rs : Bool) {evs : List Event} (h : Frames c d evs) : Frames c d (nibbleFrame c n rs d ++ evs)
  | byte (v : Byte) (rs : Bool) {evs : List Event} (h : Frames c d evs) : Frames c d (byteFrame c v rs d ++ evs)

theorem Frames.append {c : Cfg} {d : Driver} {xs ys : List Event} (hx : Frames c d xs) (hy : Frames c d ys) :
    Frames c d (xs ++ ys) := by
  induction hx with
  | nil => exact hy
  | wait ms _ ih => exact .wait ms ih
  | nibble n rs _ ih => rw [List.append_assoc]; exact .nibble n rs ih
  | byte v rs _ ih => rw [List.append_assoc]; exact .byte v rs ih

theorem Frames.flatMap {α : Type} {c : Cfg} {d : Driver} {f : α → List Event} (l : List α) (h : ∀ a, Frames c d (f a)) :
    Frames c d (l.flatMap f) := by
  induction l with
  | nil => exact .nil
  | cons a l ih => rw [List.flatMap_cons]; exact (h a).append ih

theorem frames_wait (c : Cfg) (d : Driver) (ms : Nat) : Frames c d [.wait ms] := .wait ms .nil

theorem frames_nibbleFrame (c : Cfg) (d : Driver) (n : Byte) (rs : Bool) : Frames c d (nibbleFrame c n rs d) := by
  simpa using Frames.nibble n rs (Frames.nil (c := c) (d := d))

theorem frames_byteFrame (c : Cfg) (d : Driver) (v : Byte) (rs : Bool) : Frames c d (byteFrame c v rs d) := by
  simpa using Frames.byte v rs (Frames.nil (c := c) (d := d))

theorem frames_nibbleStep (c : Cfg) (d : Driver) (k : Fin 4) : Frames c d (nibbleStep c d k) :=
  (frames_nibbleFrame c d _ _).append (frames_wait c d _)

theorem frames_commandStep (c : Cfg) (d : Driver) (cmd : Byte) (k : Fin 4) : Frames c d (commandStep c d cmd k) :=
  (frames_byteFrame c d _ _).append (frames_wait c d _)

theorem frames_initEvents (c : Cfg) (d : Driver) : Frames c d (initEvents c d) :=
  (frames_wait c d _)
    |>.append (frames_nibbleStep c d 0) |>.append (frames_nibbleStep c d 1)
    |>.append (frames_nibbleStep c d 2) |>.append (frames_nibbleStep c d 3)
    |>.append (frames_commandStep c d _ 0) |>.append (frames_commandStep c d _ 1)
    |>.append (frames_commandStep c d _ 2) |>.append (frames_commandStep c d _ 3)

theorem frames_rowFrames (c : Cfg) (d : Driver) (r : Nat) : Frames c d (rowFrames c d r) :=
  (frames_byteFrame c d _ _).append (.flatMap _ fun _ => frames_byteFrame c d _ _)

/-- In READY an instruction appends waits and frames of the Driver State it starts from; otherwise nothing. -/
theorem effect_trace {c : Cfg} {s t : State} {i : Instr} (h : Effect c s i t) :
    t.trace = s.trace ∨ ∃ d evs, s.life = .ready d ∧ Frames c d evs ∧ t.trace = s.trace ++ evs := by
  cases h with
  | refreshed d hd => exact .inr ⟨d, _, hd, .flatMap _ (frames_rowFrames c d), rfl⟩
  | scripted d hd => exact .inr ⟨d, _, hd, frames_initEvents c d, rfl⟩
  | nibbleSent _ d n rs _ hd => exact .inr ⟨d, _, hd, frames_nibbleFrame c d n rs, rfl⟩
  | byteSent _ d v rs _ hd => exact .inr ⟨d, _, hd, frames_byteFrame c d v rs, rfl⟩
  | constructed | faulted | reserved | tripled | assembled | notReady | cleared | printed | ignored | lit =>
    exact .inl rfl

/-! ## Every event carries the bus address and the backlight bit (R22, R83, R85) -/

@[simp] theorem carries_beginTx (a x : BusAddr) (bl : Bool) : carries a bl (.beginTx x) ↔ x = a := Iff.rfl
@[simp] theorem carries_endTx (a : BusAddr) (bl : Bool) : carries a bl .endTx := trivial
@[simp] theorem carries_wait (a : BusAddr) (bl : Bool) (ms : Nat) : carries a bl (.wait ms) := trivial

/-- Both bytes of a strobe pulse: backlight as it stands, read/write at 0. -/
theorem baseByte_carries (a : BusAddr) (n : Byte) (rs bl : Bool) :
    carries a bl (.write (baseByte Config.cfg n rs bl)) ∧
    carries a bl (.write (baseByte Config.cfg n rs bl ||| Config.cfg.enMask)) := by
  simp only [carries]
  revert n rs bl
  decide

theorem carries_of_frames {d : Driver} {evs : List Event} (h : Frames Config.cfg d evs) :
    ∀ e ∈ evs, carries d.busAddr d.bl e := by
  induction h with
  | nil => simp
  | wait ms _ ih => simpa using ih
  | nibble n rs _ ih =>
    exact List.forall_mem_append.2 ⟨by simp [nibbleFrame_eq, baseByte_carries], ih⟩
  | byte v rs _ ih =>
    exact List.forall_mem_append.2 ⟨by simp [byteFrame_eq, baseByte_carries], ih⟩

/-- Settles O37: what is appended is made of frames of the Driver State at the start. -/
theorem emittedEventsCarryAddressAndBacklight : Obligations.EmittedEventsCarryAddressAndBacklight := by
  intro s t d i hd h
  rcases effect_trace (exec_effect h) with ht | ⟨d', evs, hd', hevs, ht⟩
  · exact ⟨[], by simpa using ht, by simp⟩
  · obtain rfl : d' = d := Life.ready.inj (hd'.symm.trans hd)
    exact ⟨evs, ht, carries_of_frames hevs⟩

/-! ## REFRESH after INITIALIZE (R37) -/

theorem exec_refresh_ready {s : State} {d : Driver} (h : s.life = .ready d) :
    exec .refresh s = .next { s with
      trace := s.trace ++ (List.range (rows Config.cfg d.geom)).flatMap (rowFrames Config.cfg d), reply := some .ok } := by
  rw [exec_eq_meaningWith, meaningWith, refreshOp, whenReady_ready _ h, refreshEvents_eq]
  rfl

theorem exec_init_ready {s : State} {d : Driver} (h : s.life = .ready d) :
    exec .init s = .next { s with trace := s.trace ++ initEvents Config.cfg d, reply := some .ok } :=
  whenReady_ready _ h

/-- Every geometry has a row, and a row begins with an address-set. -/
theorem refresh_sends_something (d : Driver) :
    (List.range (rows Config.cfg d.geom)).flatMap (rowFrames Config.cfg d) ≠ [] := by
  have hrows : 0 < rows Config.cfg d.geom := by cases d.geom <;> decide
  intro h
  have := List.flatMap_eq_nil_iff.1 h 0 (List.mem_range.2 hrows)
  simp [rowFrames, addressFrame, byteFrame_eq] at this

/-- Settles O19: INITIALIZE leaves the Driver State, which alone decides what REFRESH sends. -/
theorem refreshIgnoresInitialize : Obligations.RefreshIgnoresInitialize := by
  intro s t u v d hd ht hu hv
  have hud : u.life = .ready d := by
    rw [exec_init_ready hd] at hu
    cases hu
    exact hd
  rw [exec_refresh_ready hd] at ht
  rw [exec_refresh_ready hud] at hv
  cases ht
  cases hv
  exact ⟨_, refresh_sends_something d, rfl, rfl⟩

/-! ## A decoded request has operands of their widths (R22, R94) -/

theorem decodeBit_ok {b : Byte} {k : Bool → Instr} {i : Instr} (h : decodeBit b k = .ok i) : ∃ v, i = k v := by
  unfold decodeBit at h
  split_ifs at h
  cases h
  exact ⟨_, rfl⟩

theorem decodeNone_ok {i j : Instr} {bs : List Byte} (h : decodeNone i bs = .ok j) : j = i := by
  cases bs with
  | nil => cases h; rfl
  | cons => cases h

theorem decodeOne_ok {k : Byte → Except DecodeError Instr} {bs : List Byte} {i : Instr} (h : decodeOne k bs = .ok i) :
    ∃ b, k b = .ok i := by
  unfold decodeOne at h
  split at h
  · cases h
  · exact ⟨_, h⟩
  · cases h

theorem decodeTwo_ok {k : Byte → Byte → Except DecodeError Instr} {bs : List Byte} {i : Instr}
    (h : decodeTwo k bs = .ok i) : ∃ a b, k a b = .ok i := by
  unfold decodeTwo at h
  split at h
  · cases h
  · cases h
  · exact ⟨_, _, h⟩
  · cases h

theorem decodeThree_ok {k : Byte → Byte → Byte → Except DecodeError Instr} {bs : List Byte} {i : Instr}
    (h : decodeThree k bs = .ok i) : ∃ a b d, k a b d = .ok i := by
  unfold decodeThree at h
  split at h
  · cases h
  · cases h
  · cases h
  · exact ⟨_, _, _, h⟩
  · cases h

/-- CONSTRUCT's bus address has `BUSADDR_BITS` bits (R22). -/
theorem decodeConstruct_wellFormed {c : Cfg} {g a : Byte} {i : Instr} (h : decodeConstruct c g a = .ok i) :
    WellFormedWith c i = true := by
  unfold decodeConstruct at h
  split_ifs at h with hfits
  cases h
  exact decide_eq_true hfits.2.2

theorem decodePrint_wellFormed {c : Cfg} {bs : List Byte} {i : Instr} (h : decodePrint bs = .ok i) :
    WellFormedWith c i = true := by
  unfold decodePrint at h
  split at h <;> cases h
  rfl

/-- The selectors with operands are 0, 3 and 5 (R94). -/
theorem decodeSelected_wellFormed {c : Cfg} {op : BitVec 3} {bs : List Byte} {i : Instr}
    (h : decodeSelected c op bs = .ok i) : WellFormedWith c i = true := by
  unfold decodeSelected at h
  split at h
  case h_1 =>
    obtain ⟨_, _, h⟩ := decodeTwo_ok h
    exact decodeConstruct_wellFormed h
  case h_4 => exact decodePrint_wellFormed h
  case h_6 =>
    obtain ⟨_, h⟩ := decodeOne_ok h
    obtain ⟨_, rfl⟩ := decodeBit_ok h
    rfl
  all_goals
    rw [decodeNone_ok h]
    rfl

theorem decodeHost_wellFormed {c : Cfg} {bs : List Byte} {i : Instr} (h : decodeHost c bs = .ok i) :
    WellFormedWith c i = true := by
  cases bs with
  | nil => cases h
  | cons sel operands =>
    simp only [decodeHost] at h
    split_ifs at h
    exact decodeSelected_wellFormed h

/-- The payload of a decoded triple is masked (R92). -/
theorem decodeTriple_wellFormed {c : Cfg} {t0 t1 t2 : Byte} {i : Instr} (h : decodeTriple c t0 t1 t2 = .ok i) :
    WellFormedWith c i = true := by
  unfold decodeTriple at h
  split_ifs at h
  cases h
  simp [WellFormedWith, payloadOnly, BitVec.and_assoc]

theorem decodeAddress_wellFormed {c : Cfg} {b : Byte} {k : DdramAddr → Instr} {why : DecodeError} {i : Instr}
    (hk : ∀ a, WellFormedWith c (k a) = true) (h : decodeAddress c b k (.error why) = .ok i) :
    WellFormedWith c i = true := by
  unfold decodeAddress at h
  split_ifs at h
  cases h
  exact hk _

theorem decodeCtrlNibble_wellFormed {c : Cfg} {b : Byte} {i : Instr} (h : decodeCtrlNibble c b = .ok i) :
    WellFormedWith c i = true := by
  unfold decodeCtrlNibble at h
  split_ifs at h <;> cases h <;> rfl

theorem decodeCtrlCommand_wellFormed {c : Cfg} {b : Byte} {i : Instr} (h : decodeCtrlCommand c b = .ok i) :
    WellFormedWith c i = true := by
  unfold decodeCtrlCommand at h
  split_ifs at h
  case neg => exact decodeAddress_wellFormed (fun _ => rfl) h
  all_goals
    cases h
    rfl

theorem decodeBusByte_wellFormed {c : Cfg} {b : Byte} {i : Instr} (h : decodeBusByte c b = .ok i) :
    WellFormedWith c i = true := by
  unfold decodeBusByte at h
  split_ifs at h
  cases h
  rfl

/-- What the decoder reads is well-formed. -/
theorem decodeWith_wellFormed {c : Cfg} {r : Request} {i : Instr} (h : decodeWith c r = .ok i) :
    WellFormedWith c i = true := by
  obtain ⟨layer, bytes⟩ := r
  cases layer with
  | host => exact decodeHost_wellFormed h
  | triple =>
    obtain ⟨_, _, _, h⟩ := decodeThree_ok h
    exact decodeTriple_wellFormed h
  | nibbleWrite | byteWrite =>
    obtain ⟨_, _, h⟩ := decodeTwo_ok h
    obtain ⟨_, rfl⟩ := decodeBit_ok h
    rfl
  | addressSet =>
    obtain ⟨_, h⟩ := decodeOne_ok h
    exact decodeAddress_wellFormed (fun _ => rfl) h
  | dataWrite | ctrlData =>
    obtain ⟨_, h⟩ := decodeOne_ok h
    cases h
    rfl
  | ctrlNibble =>
    obtain ⟨_, h⟩ := decodeOne_ok h
    exact decodeCtrlNibble_wellFormed h
  | ctrlCommand =>
    obtain ⟨_, h⟩ := decodeOne_ok h
    exact decodeCtrlCommand_wellFormed h
  | busByte =>
    obtain ⟨_, h⟩ := decodeOne_ok h
    exact decodeBusByte_wellFormed h

/-! ## The invariant, part by part -/

/-- A code that selects a geometry is that geometry's code, below `NGEOM` (R95). -/
theorem geomOfCode_some {c : Cfg} {code : BitVec 3} {g : Geom} (h : geomOfCode c code = some g) :
    (geomCode g).toNat < c.nGeom := by
  have codes : ∀ code : BitVec 3, ∀ g ∈ Geom.all[code.toNat]?, geomCode g = code := by decide
  unfold geomOfCode at h
  split_ifs at h with hlt
  rwa [codes code g h]

/-- The buffer and the registers of READY: CONSTRUCT makes them legal, the buffer operations keep the buffer so. -/
theorem registers_keep_driver_legal {c : Cfg} {s t : State} {i : Instr} (hi : WellFormedWith c i = true)
    (h : RegisterChange c s i t) (hs : ∀ d, s.life = .ready d → BufferOk c d ∧ RegistersLegal c d) :
    ∀ d, t.life = .ready d → BufferOk c d ∧ RegistersLegal c d := by
  intro d' hd'
  cases h with
  | constructed code a g hc hg hl =>
    obtain rfl := Life.ready.inj (hl.symm.trans hd')
    subst hc
    exact ⟨bufferOk_blank c (freshDriver g a), geomOfCode_some hg, of_decide_eq_true hi⟩
  | faulted _ _ _ hl => rw [hl] at hd'; cases hd'
  | kept hl => exact hs d' (hl ▸ hd')
  | buffer d m _ hd hm hl =>
    obtain rfl := Life.ready.inj (hl.symm.trans hd')
    obtain ⟨hbuf, hreg⟩ := hs d hd
    exact ⟨hm hbuf, hreg⟩
  | backlight d on _ hd hl =>
    obtain rfl := Life.ready.inj (hl.symm.trans hd')
    exact hs d hd

/-- CONSTRUCT sets FAULTCODE with LIFE; nothing else changes either. -/
theorem registers_keep_faultCodeOk {c : Cfg} {s t : State} {i : Instr} (h : RegisterChange c s i t)
    (hs : FaultCodeOk c s) : FaultCodeOk c t := by
  unfold FaultCodeOk at hs ⊢
  cases h with
  | constructed _ _ _ _ _ hl hf | faulted _ _ _ hl hf => simp [hl, hf]
  | kept hl hf => rw [hl, hf, hs]
  | buffer _ _ _ hd _ hl hf | backlight _ _ _ hd hl hf => simp [hl, hf, hs, hd]

theorem framed_of_frames {c : Cfg} (hc : MasksWellFormed c) {d : Driver} {evs : List Event} (h : Frames c d evs) :
    framed c evs = true := by
  induction h with
  | nil => rfl
  | wait ms _ ih => simpa [framed] using ih
  | nibble n rs _ ih => rw [framed_append _ _ _ (framed_nibbleFrame hc n rs d), ih]
  | byte v rs _ ih => rw [framed_append _ _ _ (framed_byteFrame hc v rs d), ih]

theorem effect_keeps_framed {c : Cfg} (hc : MasksWellFormed c) {s t : State} {i : Instr} (h : Effect c s i t)
    (hs : framed c s.trace = true) : framed c t.trace = true := by
  rcases effect_trace h with ht | ⟨d, evs, -, hevs, ht⟩
  · rw [ht, hs]
  · rw [ht, framed_append _ _ _ hs, framed_of_frames hc hevs]

/-! ## The invariant at reset and along every step -/

theorem meaningWith_keeps_inv {c : Cfg} (hc : CfgWellFormed c) {s t : State} {i : Instr}
    (hi : WellFormedWith c i = true) (h : meaningWith c i s = .next t) (hs : Inv c s) : Inv c t := by
  have heffect := meaningWith_effect h
  have hregisters := effect_registers heffect
  obtain ⟨hdriver, hfault, htrace⟩ := hs
  exact ⟨registers_keep_driver_legal hi hregisters hdriver, registers_keep_faultCodeOk hregisters hfault,
    effect_keeps_framed hc.1 heffect htrace⟩

/-- The invariant does not speak of the port. -/
theorem inv_withPort {c : Cfg} {s : State} (p : List Request) (h : Inv c s) : Inv c { s with port := p } := h

theorem stepWith_keeps_inv {c : Cfg} {s t : State} (hs : Inv c s) (h : stepWith c s = .next t) : Inv c t := by
  have hc : CfgWellFormed c := (checked_next h).1
  cases hp : s.port with
  | nil =>
    rw [stepWith_idle hc hp] at h
    cases h
    exact hs
  | cons r rest =>
    cases hd : decodeWith c r with
    | error why =>
      rw [stepWith_malformed hc hp hd] at h
      cases h
    | ok i =>
      rw [stepWith_run hc hp hd] at h
      exact meaningWith_keeps_inv hc (decodeWith_wellFormed hd) h (inv_withPort rest hs)

/-- Settles O39: a step runs a decoded, hence well-formed, instruction, which keeps each part of the invariant. -/
theorem stepKeepsTheInvariant : Obligations.StepKeepsTheInvariant :=
  ⟨fun s _ hs h => stepWith_keeps_inv hs (step_eq_stepWith s ▸ h), fun _ _ _ => stepWith_keeps_inv⟩

/-- At reset there is no Driver State, FAULTCODE is 0 and TRACE is empty. -/
theorem inv_reset (c : Cfg) : Inv c State.reset := ⟨fun _ hd => (nomatch hd), rfl, rfl⟩

/-- Settles O38. -/
theorem resetMeetsTheInvariant : Obligations.ResetMeetsTheInvariant := ⟨inv_reset Config.cfg, rfl, rfl, rfl⟩

/-! ## Operations that send a frame -/

/-- Each of them is `sends` of a frame that its operands fix. -/
theorem meaningWith_sendsFrame (c : Cfg) {i : Instr} (hi : sendsFrame i = true) :
    ∃ frame, ∀ s, meaningWith c i s = sends s frame := by
  cases i with
  | nibbleWrite | byteWrite | addressSet | dataWrite | init8bit | init4bit | functionSet | entryMode | displayOn
  | clearDisplay | setDdramAddr | data => exact ⟨_, fun _ => rfl⟩
  | construct | init | clear | print | refresh | backlight | reserved6 | reserved7 | triple | busByte => cases hi

/-- Settles O28: a `sends` outside READY is turned away. -/
theorem framesNeedADriver : Obligations.FramesNeedADriver := by
  intro s i hs hi
  obtain ⟨frame, hframe⟩ := meaningWith_sendsFrame Config.cfg hi
  rw [exec_eq_meaningWith, hframe, sends, whenReady_notReady _ hs]
  rfl

/-! ## No instruction reads TRACE (R31) -/

/-- The operation appends to TRACE, and does the same with any other TRACE in its place. -/
def TraceBlind (op : State → Result) : Prop :=
  ∀ s t, op s = .next t → ∃ evs, t.trace = s.trace ++ evs ∧
    ∀ tr, op { s with trace := tr } = .next { t with trace := tr ++ evs }

/-- An update that writes LIFE, FAULTCODE or the reply, whatever TRACE holds. -/
theorem traceBlind_next {f : State → State} (hf : ∀ s tr, f { s with trace := tr } = { f s with trace := tr })
    (ht : ∀ s, (f s).trace = s.trace) : TraceBlind fun s => .next (f s) := by
  intro s t h
  cases h
  refine ⟨[], by rw [ht, List.append_nil], fun tr => ?_⟩
  rw [List.append_nil]
  exact congrArg _ (hf s tr)

theorem traceBlind_fault (r : Fault) : TraceBlind fun _ => .fault r := fun _ _ h => nomatch h

theorem traceBlind_done_emit (evs : List Event) : TraceBlind fun s => done (emit evs s) := by
  intro s t h
  cases h
  exact ⟨evs, rfl, fun _ => rfl⟩

theorem traceBlind_done : TraceBlind done := traceBlind_next (fun _ _ => rfl) fun _ => rfl

theorem traceBlind_done_setDriver (d : Driver) : TraceBlind fun s => done (setDriver d s) :=
  traceBlind_next (fun _ _ => rfl) fun _ => rfl

theorem traceBlind_turnAway (why : Reason) : TraceBlind (turnAway why) := traceBlind_next (fun _ _ => rfl) fun _ => rfl

/-- The READY check looks at LIFE alone. -/
theorem traceBlind_whenReady {op : Driver → State → Result} (h : ∀ d, TraceBlind (op d)) :
    TraceBlind fun s => whenReady s fun d => op d s := by
  intro s t ht
  dsimp only at ht
  cases hl : driverOf s.life with
  | none =>
    rw [whenReady_notReady _ hl] at ht
    obtain ⟨evs, hevs, hsame⟩ := traceBlind_turnAway _ s t ht
    exact ⟨evs, hevs, fun tr => (whenReady_notReady (s := { s with trace := tr }) _ hl).trans (hsame tr)⟩
  | some d =>
    have hd := (driverOf_eq_some _ _).1 hl
    rw [whenReady_ready _ hd] at ht
    obtain ⟨evs, hevs, hsame⟩ := h d s t ht
    exact ⟨evs, hevs, fun tr => (whenReady_ready (s := { s with trace := tr }) _ hd).trans (hsame tr)⟩

theorem traceBlind_sends (frame : Driver → List Event) : TraceBlind fun s => sends s frame :=
  traceBlind_whenReady fun d => traceBlind_done_emit (frame d)

theorem traceBlind_constructOp (c : Cfg) (code : BitVec 3) (a : BusAddr) : TraceBlind (constructOp c code a) := by
  unfold constructOp
  cases geomOfCode c code <;> exact traceBlind_next (fun _ _ => rfl) fun _ => rfl

theorem traceBlind_printOp (c : Cfg) (row col : Byte) (text : List Byte) : TraceBlind (printOp c row col text) := by
  refine traceBlind_whenReady fun d => ?_
  split_ifs
  · cases printRun c d.geom row.toNat col.toNat text d.buf with
    | some m => exact traceBlind_done_setDriver _
    | none => exact traceBlind_fault _
  · exact traceBlind_done

theorem traceBlind_refreshOp (c : Cfg) : TraceBlind (refreshOp c) := by
  refine traceBlind_whenReady fun d => ?_
  rw [refreshEvents_eq]
  exact traceBlind_done_emit _

theorem traceBlind_meaningWith (c : Cfg) (i : Instr) : TraceBlind (meaningWith c i) := by
  cases i with
  | construct code a => exact traceBlind_constructOp c code a
  | print row col text => exact traceBlind_printOp c row col text
  | refresh => exact traceBlind_refreshOp c
  | clear | backlight => exact traceBlind_whenReady fun _ => traceBlind_done_setDriver _
  | reserved6 | reserved7 => exact traceBlind_turnAway _
  | triple | busByte => exact traceBlind_next (fun _ _ => rfl) fun _ => rfl
  | init | nibbleWrite | byteWrite | addressSet | dataWrite | init8bit | init4bit | functionSet | entryMode
  | displayOn | clearDisplay | setDdramAddr | data => exact traceBlind_sends _

/-- Settles O32: no shared operation reads TRACE, so no instruction does. -/
theorem traceIsAppendOnlyAndNeverRead : Obligations.TraceIsAppendOnlyAndNeverRead := by
  intro s t i h
  simp only [exec_eq_meaningWith] at h ⊢
  exact traceBlind_meaningWith Config.cfg i s t h

end Sys2Proof.Machine
end

section
/-! PROOFS. The memory of the display: every cell has a controller address of its own, a byte frame is read back as it
was sent, and REFRESH leaves the buffer in the display memory. -/

namespace Sys2Proof.Machine

open Sys2Proof.Safety

/-! ## The translation gives every cell an address of its own (R60, R61) -/

theorem mapWellFormed {c : Cfg} (hc : CfgWellFormed c) (g : Geom) : MapWellFormed c g := by
  obtain ⟨-, hmap, -⟩ := hc
  exact hmap g (by cases g <;> decide)

/-- Below `NCELLS` an offset is a row and a column of the grid (R51). -/
theorem cell_of_offset {c : Cfg} {g : Geom} {i : Nat} (h : i < nCells c g) :
    i / cols c g < rows c g ∧ i % cols c g < cols c g := by
  have hcols : 0 < cols c g := Nat.pos_of_ne_zero fun h0 => by simp [nCells, h0] at h
  exact ⟨Nat.div_lt_of_lt_mul h, Nat.mod_lt _ hcols⟩

/-- A cell's address has 7 bits. -/
theorem xlate_lt {c : Cfg} (hc : CfgWellFormed c) {g : Geom} {r k : Nat} (hr : r < rows c g) (hk : k < cols c g) :
    xlate c g r k < 0x80 := by
  obtain ⟨-, hend, -⟩ := mapWellFormed hc g
  have := hend r (List.mem_range.2 hr)
  unfold xlate
  omega

/-- Cells of two rows have two addresses, since no two segments share one (R6). -/
theorem xlate_ne_of_row_lt {c : Cfg} (hc : CfgWellFormed c) {g : Geom} {r s k l : Nat} (hrs : r < s) (hs : s < rows c g)
    (hk : k < cols c g) (hl : l < cols c g) : xlate c g r k ≠ xlate c g s l := by
  obtain ⟨-, -, hapart⟩ := mapWellFormed hc g
  have := hapart r (List.mem_range.2 (by omega)) s (List.mem_range.2 hs) hrs
  unfold xlate
  omega

theorem xlateOffset_lt {c : Cfg} (hc : CfgWellFormed c) {g : Geom} {i : Nat} (hi : i < nCells c g) :
    xlateOffset c g i < 0x80 :=
  xlate_lt hc (cell_of_offset hi).1 (cell_of_offset hi).2

theorem xlateOffset_injective {c : Cfg} (hc : CfgWellFormed c) {g : Geom} {i j : Nat} (hi : i < nCells c g)
    (hj : j < nCells c g) (h : xlateOffset c g i = xlateOffset c g j) : i = j := by
  obtain ⟨hri, hki⟩ := cell_of_offset hi
  obtain ⟨hrj, hkj⟩ := cell_of_offset hj
  rcases Nat.lt_trichotomy (i / cols c g) (j / cols c g) with hlt | heq | hgt
  · exact absurd h (xlate_ne_of_row_lt hc hlt hrj hki hkj)
  · have hcol : i % cols c g = j % cols c g := by
      simpa [xlateOffset, xlate, heq] using h
    rw [← Nat.div_add_mod i (cols c g), heq, hcol, Nat.div_add_mod]
  · exact absurd h.symm (xlate_ne_of_row_lt hc hgt hri hkj hki)

/-- Settles O17: the segments end by 0x80 and share no address. -/
theorem translationIsInjective : Obligations.TranslationIsInjective := fun _ _ _ _ hc hi hj =>
  ⟨xlateOffset_lt hc hi, xlateOffset_injective hc hi hj⟩

/-! ## What the lines of a triple carry (R67, R68) -/

/-- Every control mask is a single bit below the payload (R6). -/
theorem masks_low {c : Cfg} (hc : MasksWellFormed c) :
    ∀ m ∈ [c.rsMask, c.rwMask, c.enMask, c.blMask], m ∈ [1#8, 2#8, 4#8, 8#8] := by
  obtain ⟨hn, hm, -⟩ := hc
  rw [hn] at hm
  exact fun m h => oneBit_low (hm m h).1 (hm m h).2

/-- Such a bit is not zero and is outside the payload's place. -/
theorem low_bit : ∀ m ∈ [1#8, 2#8, 4#8, 8#8], m ≠ 0#8 ∧ hiNibble m = 0#4 := by decide

/-- The strobe and the backlight share no bit with RS (R6). -/
theorem masks_apart_from_rs {c : Cfg} (hc : MasksWellFormed c) :
    c.enMask &&& c.rsMask = 0#8 ∧ c.blMask &&& c.rsMask = 0#8 := by
  have apart : ∀ m ∈ [1#8, 2#8, 4#8, 8#8], ∀ k ∈ [1#8, 2#8, 4#8, 8#8], m ≠ k → m &&& k = 0#8 := by decide
  have low := masks_low hc
  obtain ⟨-, -, hd⟩ := hc
  simp only [List.nodup_cons, List.mem_cons, not_or] at hd
  obtain ⟨⟨-, hen, hbl, -⟩, -⟩ := hd
  exact ⟨apart _ (low _ (by simp)) _ (low _ (by simp)) (Ne.symm hen),
    apart _ (low _ (by simp)) _ (low _ (by simp)) (Ne.symm hbl)⟩

@[simp] theorem hiNibble_zero : hiNibble 0#8 = 0#4 := rfl

theorem hiNibble_or (a b : Byte) : hiNibble (a ||| b) = hiNibble a ||| hiNibble b := BitVec.extractLsb'_or

/-- With the strobe active the lines show the payload. -/
theorem hiNibble_strobed {c : Cfg} (hc : MasksWellFormed c) (n : Byte) (rs bl : Bool) :
    hiNibble (baseByte c n rs bl ||| c.enMask) = hiNibble n := by
  have payload : ∀ n : Byte, hiNibble (n &&& 0xF0#8) = hiNibble n := by decide
  have hrs := (low_bit _ (masks_low hc c.rsMask (by simp))).2
  have hbl := (low_bit _ (masks_low hc c.blMask (by simp))).2
  have hen := (low_bit _ (masks_low hc c.enMask (by simp))).2
  have hrsBits : hiNibble (rsBits c rs) = 0#4 := by cases rs <;> simp [rsBits, hrs]
  have hblBits : hiNibble (blBits c bl) = 0#4 := by cases bl <;> simp [blBits, hbl]
  simp [baseByte, hiNibble_or, hrsBits, hblBits, hen, hc.1, payload]

/-- With the strobe active the lines show RS. -/
theorem rs_strobed {c : Cfg} (hc : MasksWellFormed c) (n : Byte) (rs bl : Bool) :
    (baseByte c n rs bl ||| c.enMask) &&& c.rsMask = rsBits c rs := by
  obtain ⟨hen, hbl⟩ := masks_apart_from_rs hc
  have hpayload : c.nibbleMask &&& c.rsMask = 0#8 := by
    obtain ⟨-, hm, -⟩ := hc
    rw [BitVec.and_comm, (hm c.rsMask (by simp)).2]
  have hblBits : blBits c bl &&& c.rsMask = 0#8 := by cases bl <;> simp [blBits, hbl]
  have hrsBits : rsBits c rs &&& c.rsMask = rsBits c rs := by cases rs <;> simp [rsBits]
  simp [baseByte, BitVec.and_or_distrib_right, BitVec.and_assoc, hen, hpayload, hblBits, hrsBits]

/-- RS is 1 on the lines if the operand is. -/
theorem rsBits_ne_zero {c : Cfg} (hc : MasksWellFormed c) (rs : Bool) : rsBits c rs ≠ 0#8 ↔ rs = true := by
  have := (low_bit _ (masks_low hc c.rsMask (by simp))).1
  cases rs <;> simp [rsBits, this]

/-- The strobe line is active in the middle byte of a triple. -/
theorem strobe_active {c : Cfg} (hc : MasksWellFormed c) (b : Byte) : (b ||| c.enMask) &&& c.enMask ≠ 0#8 := by
  have := (low_bit _ (masks_low hc c.enMask (by simp))).1
  simp [BitVec.and_or_distrib_right, this]

/-! ## What a receiver makes of events (R67 to R70) -/

@[simp] theorem receiveAll_nil (c : Cfg) (r : Receiver) : receiveAll c [] r = r := rfl

@[simp] theorem receiveAll_cons (c : Cfg) (e : Event) (evs : List Event) (r : Receiver) :
    receiveAll c (e :: evs) r = receiveAll c evs (receive c r e) := rfl

@[simp] theorem receiveAll_append (c : Cfg) (xs ys : List Event) (r : Receiver) :
    receiveAll c (xs ++ ys) r = receiveAll c ys (receiveAll c xs r) := List.foldl_append

/-- A transaction's writes reach the receiver it is addressed to, and leave it unselected. -/
theorem receiveAll_transaction (c : Cfg) (bytes : List Byte) (r : Receiver) :
    receiveAll c (transaction r.addr bytes) r =
      { receiveAll c (bytes.map .write) { r with selected := true } with selected := false } := by
  simp [transaction, receive]

/-- A byte after an idle strobe is on the lines and nothing is latched. -/
theorem receive_write_idle {c : Cfg} {r : Receiver} (b : Byte) (hsel : r.selected = true) (hidle : StrobeIdle c r) :
    receive c r (.write b) = { r with lines := b } := by
  unfold StrobeIdle at hidle
  simp [receive, receiveLines, hsel, hidle]

/-- The strobe's falling edge in a triple latches the payload and RS (R68). -/
theorem receiveAll_triple {c : Cfg} (hc : MasksWellFormed c) {r : Receiver} (n : Byte) (rs bl : Bool)
    (hsel : r.selected = true) (hidle : StrobeIdle c r) :
    receiveAll c ((tripleBytes c n rs bl).map .write) r =
      receiveNibble c { r with lines := baseByte c n rs bl } (hiNibble n) rs := by
  have hbase : baseByte c n rs bl &&& c.enMask = 0#8 := (baseByte_lines hc n rs bl).1
  have hactive : receive c { r with lines := baseByte c n rs bl } (.write (baseByte c n rs bl ||| c.enMask)) =
      { r with lines := baseByte c n rs bl ||| c.enMask } := receive_write_idle _ hsel hbase
  simp only [tripleBytes, List.map_cons, List.map_nil, receiveAll_cons, receiveAll_nil]
  rw [receive_write_idle _ hsel hidle, hactive]
  simp [receive, hsel, receiveLines, strobe_active hc, hbase, hiNibble_strobed hc, rs_strobed hc,
    rsBits_ne_zero hc]

/-- The two payloads of a byte make the byte (R91). -/
theorem hiPayload_loPayload {c : Cfg} (hc : MasksWellFormed c) (v : Byte) :
    hiNibble (hiPayload c v) ++ hiNibble (loPayload c v) = v := by
  rw [hiPayload, loPayload, hc.1]
  revert v
  decide

/-- No value changes the lines or the selection, and what it does does not depend on them. -/
theorem receiveValue_lines (c : Cfg) (r : Receiver) (v : Byte) (rs : Bool) (b : Byte) (sel : Bool) :
    receiveValue c { r with lines := b, selected := sel } v rs =
      { receiveValue c r v rs with lines := b, selected := sel } := by
  cases rs with
  | true => rfl
  | false =>
    simp only [receiveValue, receiveCommand, Bool.false_eq_true, if_false]
    split_ifs <;> rfl

/-- A byte frame at a receiver in step: the value with its RS, two more nibbles latched, the strobe idle (R68, R69). -/
theorem receiveAll_byteFrame {c : Cfg} (hc : MasksWellFormed c) {d : Driver} {r : Receiver} (v : Byte) (rs : Bool)
    (hr : InStep c r) (ha : r.addr = d.busAddr) :
    receiveAll c (byteFrame c v rs d) r =
      { receiveValue c { r with latched := r.latched + 2 } v rs with
        lines := baseByte c (loPayload c v) rs d.bl, selected := false } := by
  obtain ⟨hmode, hhalf, hidle⟩ := hr
  have hidle1 : StrobeIdle c { r with selected := true } := hidle
  have hidle2 : baseByte c (hiPayload c v) rs d.bl &&& c.enMask = 0#8 := (baseByte_lines hc _ rs d.bl).1
  have hfirst : receiveNibble c { r with selected := true, lines := baseByte c (hiPayload c v) rs d.bl }
      (hiNibble (hiPayload c v)) rs =
      { r with selected := true, lines := baseByte c (hiPayload c v) rs d.bl, latched := r.latched + 1,
               half := some (hiNibble (hiPayload c v)) } := by
    simp [receiveNibble, hmode, hhalf]
  have hvalue := receiveValue_lines c { r with latched := r.latched + 2 } v rs (baseByte c (loPayload c v) rs d.bl) true
  simp only [hmode, hhalf] at hvalue
  rw [byteFrame, ← ha, receiveAll_transaction, List.map_append, receiveAll_append,
    receiveAll_triple hc _ _ _ rfl hidle1, hfirst, receiveAll_triple hc _ _ _ rfl (by exact hidle2)]
  simp only [receiveNibble, hmode, hhalf, hiPayload_loPayload hc, hvalue]

/-- Settles O41: the two falling edges of the frame latch the two halves of the value. -/
theorem receiverReadsBackAByteFrame : Obligations.ReceiverReadsBackAByteFrame := fun _ _ v rs _ hc hr ha =>
  ⟨_, _, receiveAll_byteFrame hc v rs hr ha, (baseByte_lines hc _ rs _).1⟩

/-! ## The frames of REFRESH at a receiver in step (R70, R150, R151) -/

/-- An address-set command sets the address counter and nothing else, where bit 7 marks it. -/
theorem receiveCommand_address {c : Cfg} (ho : c.opcSetDdram = 0x80#8) (r : Receiver) (a : DdramAddr) :
    receiveCommand c r (addressCommand c a) = { r with ac := a } := by
  have hbit : ∀ a : DdramAddr, (0x80#8 ||| a.zeroExtend 8).getLsbD 7 = true ∧
      addressBits (0x80#8 ||| a.zeroExtend 8) = a := by decide
  rw [addressCommand, ho, receiveCommand, if_pos (hbit a).1, (hbit a).2]

/-- What an address-set frame leaves. -/
theorem receiveAll_addressFrame {c : Cfg} (hc : MasksWellFormed c) (ho : c.opcSetDdram = 0x80#8) {d : Driver}
    {r : Receiver} (hr : InStep c r) (ha : r.addr = d.busAddr) (a : DdramAddr) :
    let r' := receiveAll c (addressFrame c a d) r
    InStep c r' ∧ r'.addr = r.addr ∧ r'.ac = a ∧ r'.ddram = r.ddram := by
  simp only [addressFrame, receiveAll_byteFrame hc _ _ hr ha, receiveValue, Bool.false_eq_true, if_false,
    receiveCommand_address ho, and_self, and_true]
  obtain ⟨hmode, hhalf, -⟩ := hr
  exact ⟨hmode, hhalf, (baseByte_lines hc _ _ _).1⟩

/-- What a data frame leaves. -/
theorem receiveAll_dataFrame {c : Cfg} (hc : MasksWellFormed c) {d : Driver}
    {r : Receiver} (hr : InStep c r) (ha : r.addr = d.busAddr) (v : Byte) :
    let r' := receiveAll c (dataFrame c v d) r
    InStep c r' ∧ r'.addr = r.addr ∧ r'.ac = r.ac + 1#7 ∧ ∀ b, r'.ddram b = if b = r.ac then v else r.ddram b := by
  simp only [dataFrame, receiveAll_byteFrame hc _ _ hr ha, receiveValue, if_true, receiveData, implies_true, and_self,
    and_true]
  obtain ⟨hmode, hhalf, -⟩ := hr
  exact ⟨hmode, hhalf, (baseByte_lines hc _ _ _).1⟩

/-! ## REFRESH, cell by cell (R61, R152) -/

/-- A receiver in step whose display memory holds the first `n` cells of the buffer, and which is otherwise as `r₀`. -/
structure Shows (c : Cfg) (d : Driver) (r₀ : Receiver) (n : Nat) (r : Receiver) : Prop where
  inStep : InStep c r
  addr : r.addr = d.busAddr
  cells : ∀ i, i < n → r.ddram (BitVec.ofNat 7 (xlateOffset c d.geom i)) = Memory.read c d.buf i
  others : ∀ a : DdramAddr, (∀ i, i < n → xlateOffset c d.geom i ≠ a.toNat) → r.ddram a = r₀.ddram a

theorem shows_zero {c : Cfg} {d : Driver} {r : Receiver} (hr : InStep c r) (ha : r.addr = d.busAddr) :
    Shows c d r 0 r := ⟨hr, ha, by simp, fun _ _ => rfl⟩

/-- The address of the cell of row `row`, column `k`. -/
theorem xlateOffset_cell {c : Cfg} {g : Geom} {row k : Nat} (hk : k < cols c g) :
    xlateOffset c g (row * cols c g + k) = segmentBase c g row + k := by
  have hcols : 0 < cols c g := by omega
  rw [xlateOffset, xlate, Nat.mul_comm, Nat.mul_add_div hcols, Nat.mul_add_mod, Nat.div_eq_of_lt hk,
    Nat.mod_eq_of_lt hk, Nat.add_zero]

/-- Two cells have the same 7-bit address only if they are the same. -/
theorem ofNat_xlateOffset_injective {c : Cfg} (hc : CfgWellFormed c) {g : Geom} {i j : Nat} (hi : i < nCells c g)
    (hj : j < nCells c g) (h : BitVec.ofNat 7 (xlateOffset c g i) = BitVec.ofNat 7 (xlateOffset c g j)) : i = j := by
  have hi' := xlateOffset_lt hc hi
  have hj' := xlateOffset_lt hc hj
  refine xlateOffset_injective hc hi hj ?_
  simpa [Nat.mod_eq_of_lt, hi', hj'] using congrArg BitVec.toNat h

section
variable {c : Cfg} {d : Driver} {r₀ r : Receiver}

/-- An address-set changes no cell. -/
theorem Shows.address (hc : CfgWellFormed c) (ho : c.opcSetDdram = 0x80#8) {n : Nat} (h : Shows c d r₀ n r)
    (a : DdramAddr) :
    Shows c d r₀ n (receiveAll c (addressFrame c a d) r) ∧ (receiveAll c (addressFrame c a d) r).ac = a := by
  obtain ⟨hstep, haddr, hac, hddram⟩ := receiveAll_addressFrame hc.1 ho h.inStep h.addr a
  exact ⟨⟨hstep, haddr.trans h.addr, by simpa [hddram] using h.cells, by simpa [hddram] using h.others⟩, hac⟩

/-- A data write at the next cell's address adds that cell: no earlier cell shares the address. -/
theorem Shows.data (hc : CfgWellFormed c) {n : Nat} (h : Shows c d r₀ n r) (hn : n < nCells c d.geom)
    (hac : r.ac = BitVec.ofNat 7 (xlateOffset c d.geom n)) :
    Shows c d r₀ (n + 1) (receiveAll c (dataFrame c (Memory.read c d.buf n) d) r) := by
  obtain ⟨hstep, haddr, -, hddram⟩ := receiveAll_dataFrame hc.1 h.inStep h.addr (Memory.read c d.buf n)
  refine ⟨hstep, haddr.trans h.addr, fun i hi => ?_, fun a hfree => ?_⟩
  · rw [hddram, hac]
    by_cases hin : i = n
    · simp [hin]
    · rw [if_neg fun he => hin (ofNat_xlateOffset_injective hc (by omega) hn he)]
      exact h.cells i (by omega)
  · have hne : a ≠ r.ac := by
      rintro rfl
      apply hfree n (by omega)
      rw [hac, BitVec.toNat_ofNat, Nat.mod_eq_of_lt (xlateOffset_lt hc hn)]
    rw [hddram, if_neg hne]
    exact h.others a fun i hi => hfree i (by omega)

/-- The cells of a row from column `k` on, where `m` are left. -/
theorem Shows.cellRun (hc : CfgWellFormed c) {row : Nat} (hrow : row < rows c d.geom) (m k : Nat)
    (hm : k + m = cols c d.geom) (h : Shows c d r₀ (row * cols c d.geom + k) r)
    (hac : r.ac = BitVec.ofNat 7 (segmentBase c d.geom row + k)) :
    Shows c d r₀ (row * cols c d.geom + cols c d.geom)
      (receiveAll c (cellFrames c d (row * cols c d.geom + k) m) r) := by
  induction m generalizing k r with
  | zero => simpa [cellFrames, ← hm] using h
  | succ m ih =>
    have hk : k < cols c d.geom := by omega
    have hnext := h.data hc (cellOffset_lt hrow hk) (by rw [hac, xlateOffset_cell hk])
    rw [cellFrames_succ, receiveAll_append]
    refine ih (k + 1) (by omega) hnext ?_
    obtain ⟨-, -, hadvance, -⟩ := receiveAll_dataFrame hc.1 h.inStep h.addr
      (Memory.read c d.buf (row * cols c d.geom + k))
    rw [hadvance, hac, ← BitVec.ofNat_add, Nat.add_assoc]

/-- One row: the address-set of its base, then its cells. -/
theorem Shows.row (hc : CfgWellFormed c) (ho : c.opcSetDdram = 0x80#8) {row : Nat} (hrow : row < rows c d.geom)
    (h : Shows c d r₀ (row * cols c d.geom) r) :
    Shows c d r₀ ((row + 1) * cols c d.geom) (receiveAll c (rowFrames c d row) r) := by
  obtain ⟨hset, hac⟩ := h.address hc ho (BitVec.ofNat 7 (segmentBase c d.geom row))
  rw [rowFrames, receiveAll_append, Nat.succ_mul]
  exact hset.cellRun hc hrow (cols c d.geom) 0 (by omega) hac

/-- The first `n` rows of a REFRESH. -/
theorem shows_rows (hc : CfgWellFormed c) (ho : c.opcSetDdram = 0x80#8) (hr : InStep c r) (ha : r.addr = d.busAddr)
    (n : Nat) (hn : n ≤ rows c d.geom) :
    Shows c d r (n * cols c d.geom) (receiveAll c ((List.range n).flatMap (rowFrames c d)) r) := by
  induction n with
  | zero => simpa using shows_zero hr ha
  | succ n ih =>
    rw [List.range_succ, List.flatMap_append, receiveAll_append, List.flatMap_singleton]
    exact (ih (by omega)).row hc ho (by omega)

end

/-- Settles O42: row by row, each cell lands at its own address. -/
theorem refreshFillsTheDisplay : Obligations.RefreshFillsTheDisplay := by
  intro s t d r hd ht hr ha
  rw [exec_refresh_ready hd] at ht
  cases ht
  have hshows := shows_rows cfg_wellFormed rfl hr ha (rows Config.cfg d.geom) le_rfl
  rw [Nat.mul_comm] at hshows
  exact ⟨_, rfl, hshows.cells, hshows.others, hshows.inStep⟩

end Sys2Proof.Machine
end

section
/-! PROOFS. The encoding: decoding the words of an instruction gives it back, and a request that decodes is the words of
its instruction (R81, R87, R94, R99). -/

namespace Sys2Proof.Machine

open Sys2Proof.Safety

/-! ## The lines of a bus byte (R81, R85) -/

/-- The payload and the control lines share no bit (R6). -/
theorem fields_apart {c : Cfg} (hc : MasksWellFormed c) :
    [c.nibbleMask, c.rsMask, c.rwMask, c.enMask, c.blMask].Pairwise fun m k => m &&& k = 0#8 ∧ k &&& m = 0#8 := by
  have apart : ∀ m ∈ [1#8, 2#8, 4#8, 8#8], ∀ k ∈ [1#8, 2#8, 4#8, 8#8], m ≠ k → m &&& k = 0#8 ∧ k &&& m = 0#8 := by
    decide
  have low := masks_low hc
  obtain ⟨-, hm, hd⟩ := hc
  refine List.pairwise_cons.2 ⟨fun m h => ?_, hd.imp_of_mem fun hm hk hne => apart _ (low _ hm) _ (low _ hk) hne⟩
  exact ⟨by rw [BitVec.and_comm, (hm m h).2], (hm m h).2⟩

/-- A line driven shows nothing at a place it shares no bit with. -/
theorem lineBits_and_of_apart {m k : Byte} (h : m &&& k = 0#8) (on : Bool) : lineBits m on &&& k = 0#8 := by
  cases on <;> simp [lineBits, h]

@[simp] theorem lineBits_and_self (m : Byte) (on : Bool) : lineBits m on &&& m = lineBits m on := by
  cases on <;> simp [lineBits]

/-- A line reads as it is driven. -/
theorem lineOf_eq {m b : Byte} {on : Bool} (hm : m ≠ 0#8) (h : b &&& m = lineBits m on) : lineOf m b = on := by
  cases on <;> simp [lineOf, h, lineBits, hm]

/-- Driven as it reads, a line is the byte's bit at its place. -/
theorem lineBits_lineOf : ∀ m ∈ [1#8, 2#8, 4#8, 8#8], ∀ b, lineBits m (lineOf m b) = b &&& m := by decide

/-- The payload's place is bits 7..4 (R6). -/
theorem and_nibbleMask {c : Cfg} (hc : MasksWellFormed c) (b : Byte) : b &&& c.nibbleMask = hiNibble b ++ 0#4 := by
  rw [hc.1]
  revert b
  decide

@[simp] theorem hiNibble_append (d x : Nibble) : hiNibble (d ++ x) = d := BitVec.extractLsb'_append_eq_left

/-- A byte is its bits under a mask if it has none outside. -/
theorem and_eq_self_of_and_not {b m : Byte} (h : b &&& ~~~m = 0#8) : b &&& m = b := by
  calc b &&& m = b &&& (m ||| ~~~m) := by rw [BitVec.and_or_distrib_left, h, BitVec.or_zero]
    _ = b := by rw [BitVec.or_not_self, BitVec.and_allOnes]

/-- The payload and the lines together, in the order of R81's pattern and in that of the mask of unused bits. -/
theorem allLines_comm (c : Cfg) :
    c.nibbleMask ||| c.blMask ||| c.enMask ||| c.rsMask = c.nibbleMask ||| c.rsMask ||| c.enMask ||| c.blMask := by ac_rfl

/-- A bus byte without an unused bit is made of its fields. -/
theorem busByteWord_fields {c : Cfg} (hc : MasksWellFormed c) {b : Byte} (h : unusedLines c b = 0#8) :
    busByteWord c (hiNibble b) (lineOf c.blMask b) (lineOf c.enMask b) (lineOf c.rsMask b) = b := by
  have line : ∀ m ∈ [c.rsMask, c.rwMask, c.enMask, c.blMask], lineBits m (lineOf m b) = b &&& m :=
    fun m hm => lineBits_lineOf m (masks_low hc m hm) b
  calc busByteWord c (hiNibble b) (lineOf c.blMask b) (lineOf c.enMask b) (lineOf c.rsMask b)
      = b &&& (c.nibbleMask ||| c.blMask ||| c.enMask ||| c.rsMask) := by
        simp only [busByteWord, line c.blMask (by simp), line c.enMask (by simp), line c.rsMask (by simp),
          ← and_nibbleMask hc, BitVec.and_or_distrib_left]
    _ = b := by rw [allLines_comm, and_eq_self_of_and_not h]

section
variable {c : Cfg} (hc : MasksWellFormed c) (d : Nibble) (bl en rs : Bool)
include hc

/-- What a bus byte holds at the place of each field. -/
theorem busByteWord_and :
    busByteWord c d bl en rs &&& c.nibbleMask = d ++ 0#4 ∧
    busByteWord c d bl en rs &&& c.blMask = lineBits c.blMask bl ∧
    busByteWord c d bl en rs &&& c.enMask = lineBits c.enMask en ∧
    busByteWord c d bl en rs &&& c.rsMask = lineBits c.rsMask rs := by
  have hpayload : d ++ 0#4 = (d ++ 0#4) &&& c.nibbleMask := by rw [and_nibbleMask hc, hiNibble_append]
  have happ := fields_apart hc
  simp only [List.pairwise_cons, List.forall_mem_cons] at happ
  rw [busByteWord, hpayload]
  simp [BitVec.and_or_distrib_right, BitVec.and_assoc, lineBits_and_of_apart, happ]

/-- A bus byte reads back field by field, and has no other bit. -/
theorem fields_busByteWord :
    hiNibble (busByteWord c d bl en rs) = d ∧ lineOf c.blMask (busByteWord c d bl en rs) = bl ∧
    lineOf c.enMask (busByteWord c d bl en rs) = en ∧ lineOf c.rsMask (busByteWord c d bl en rs) = rs ∧
    unusedLines c (busByteWord c d bl en rs) = 0#8 := by
  obtain ⟨hpayload, hbl, hen, hrs⟩ := busByteWord_and hc d bl en rs
  have nonzero : ∀ m ∈ [c.rsMask, c.rwMask, c.enMask, c.blMask], m ≠ 0#8 :=
    fun m hm => (low_bit m (masks_low hc m hm)).1
  have hall : busByteWord c d bl en rs &&& (c.nibbleMask ||| c.blMask ||| c.enMask ||| c.rsMask) =
      busByteWord c d bl en rs := by
    simp only [BitVec.and_or_distrib_left, hpayload, hbl, hen, hrs]
    rfl
  refine ⟨?_, lineOf_eq (nonzero _ (by simp)) hbl, lineOf_eq (nonzero _ (by simp)) hen,
    lineOf_eq (nonzero _ (by simp)) hrs, ?_⟩
  · have := congrArg hiNibble hpayload
    rwa [and_nibbleMask hc, hiNibble_append, hiNibble_append] at this
  · rw [unusedLines, ← allLines_comm, ← hall, BitVec.and_assoc, BitVec.and_not_self]
    exact BitVec.and_zero

end

/-! ## From an instruction to its words and back -/

section
variable {c : Cfg}

@[simp] theorem decodeBit_bitByte (v : Bool) (k : Bool → Instr) : decodeBit (bitByte v) k = .ok (k v) := by
  cases v <;> rfl

/-- The base word of a triple is the bus byte with the strobe idle (R84, R87). -/
theorem tripleWord_eq_busByteWord (hc : MasksWellFormed c) (n : Byte) (rs bl : Bool) :
    tripleWord c n rs bl = busByteWord c (hiNibble n) bl false rs := by
  simp only [tripleWord, busByteWord, and_nibbleMask hc, lineBits, Bool.false_eq_true, if_false, BitVec.or_zero]
  ac_rfl

theorem decodeConstruct_words {geom : BitVec 3} {a : BusAddr} (ha : addressFits c a) :
    decodeConstruct c (0#5 ++ geom) (0#1 ++ a) = .ok (.construct geom a) := by
  have hg : ∀ geom : BitVec 3, (0#5 ++ geom).extractLsb' 3 5 = 0#5 ∧ (0#5 ++ geom).extractLsb' 0 3 = geom := by decide
  have hb : ∀ a : BusAddr, (0#1 ++ a).getLsbD 7 = false ∧ addressBits (0#1 ++ a) = a := by decide
  rw [decodeConstruct, (hg geom).2, (hb a).2, if_pos ⟨(hg geom).1, (hb a).1, ha⟩]

theorem decodeTriple_words (hc : MasksWellFormed c) {n : Byte} (hn : payloadOnly c n) (rs bl : Bool) :
    decodeTriple c (tripleWord c n rs bl) (tripleWord c n rs bl ||| c.enMask) (tripleWord c n rs bl) =
      .ok (.triple n rs bl) := by
  have hpayload : hiNibble n ++ 0#4 = n := by rw [← and_nibbleMask hc, and_eq_self_of_and_not hn]
  obtain ⟨-, hbl, hen, hrs, hunused⟩ := fields_busByteWord hc (hiNibble n) bl false rs
  obtain ⟨hand, -⟩ := busByteWord_and hc (hiNibble n) bl false rs
  rw [tripleWord_eq_busByteWord hc]
  simp [decodeTriple, hand, hpayload, hbl, hen, hrs, hunused]

theorem decodeBusByte_word (hc : MasksWellFormed c) (d : Nibble) (bl en rs : Bool) :
    decodeBusByte c (busByteWord c d bl en rs) = .ok (.busByte d bl en rs) := by
  obtain ⟨hd, hbl, hen, hrs, hunused⟩ := fields_busByteWord hc d bl en rs
  simp [decodeBusByte, hd, hbl, hen, hrs, hunused]

/-- The opcode of an address-set is bit 7 at most (R6), the address the other seven bits. -/
theorem addressWord_fields (ho : c.opcSetDdram &&& 0x7F#8 = 0#8) (a : DdramAddr) :
    addressWord c a &&& 0x80#8 = c.opcSetDdram ∧ addressBits (addressWord c a) = a := by
  have hop : c.opcSetDdram &&& 0x80#8 = c.opcSetDdram := and_eq_self_of_and_not ho
  have hlow : addressBits c.opcSetDdram = 0#7 := by
    rw [← hop]
    generalize c.opcSetDdram = o
    revert o
    decide
  have ha : ∀ a : DdramAddr, (0#1 ++ a) &&& 0x80#8 = 0#8 ∧ addressBits (0#1 ++ a) = a := by decide
  have hor : ∀ x y : Byte, addressBits (x ||| y) = addressBits x ||| addressBits y := fun _ _ => BitVec.extractLsb'_or
  simp [addressWord, BitVec.and_or_distrib_right, hop, hor, hlow, ha]

theorem decodeAddress_word (ho : c.opcSetDdram &&& 0x7F#8 = 0#8) (a : DdramAddr) (k : DdramAddr → Instr)
    (no : Except DecodeError Instr) : decodeAddress c (addressWord c a) k no = .ok (k a) := by
  obtain ⟨hop, ha⟩ := addressWord_fields ho a
  rw [decodeAddress, if_pos hop, ha]

/-- The two halves of a nibble value (R92). -/
theorem nibbleWord_fields (hc : MasksWellFormed c) (v : Byte) (x : Nibble) :
    nibbleWord c v x &&& c.nibbleMask = v &&& c.nibbleMask ∧ loNibble (nibbleWord c v x) = x := by
  have hlo : ∀ a b : Byte, loNibble (a ||| b) = loNibble a ||| loNibble b := fun _ _ => BitVec.extractLsb'_or
  have happend : ∀ d x : Nibble, loNibble (d ++ x) = x := fun _ _ => BitVec.extractLsb'_append_eq_right
  simp [nibbleWord, and_nibbleMask hc, hiNibble_or, hlo, happend]

theorem decodeCtrlNibble_init8bit (hc : MasksWellFormed c) (x : Nibble) :
    decodeCtrlNibble c (nibbleWord c (c.initNibble 0) x) = .ok (.init8bit x) := by
  obtain ⟨hhi, hlo⟩ := nibbleWord_fields hc (c.initNibble 0) x
  rw [decodeCtrlNibble, if_pos hhi, hlo]

theorem decodeCtrlNibble_init4bit (hc : MasksWellFormed c) (happ : CommandsApart c) (x : Nibble) :
    decodeCtrlNibble c (nibbleWord c (c.initNibble 3) x) = .ok (.init4bit x) := by
  obtain ⟨hhi, hlo⟩ := nibbleWord_fields hc (c.initNibble 3) x
  rw [decodeCtrlNibble, if_neg (by rw [hhi]; exact happ.1.symm), if_pos hhi, hlo]

/-- The four commands each decode to themselves, since no earlier row has their value. -/
theorem decodeCtrlCommand_commands (happ : CommandsApart c) :
    decodeCtrlCommand c c.cmdFunctionSet = .ok .functionSet ∧ decodeCtrlCommand c c.cmdEntryMode = .ok .entryMode ∧
    decodeCtrlCommand c c.cmdDisplayOn = .ok .displayOn ∧ decodeCtrlCommand c c.cmdClearDisplay = .ok .clearDisplay := by
  obtain ⟨-, hd, -⟩ := happ
  simp only [List.nodup_cons, List.mem_cons, not_or, List.not_mem_nil, not_false_eq_true, List.nodup_nil, and_true] at hd
  obtain ⟨⟨hfe, hfd, hfc⟩, ⟨hed, hec⟩, hdc⟩ := hd
  simp [decodeCtrlCommand, Ne.symm hfe, Ne.symm hfd, Ne.symm hfc, Ne.symm hed, Ne.symm hec, Ne.symm hdc]

/-- An address-set is none of the four commands. -/
theorem decodeCtrlCommand_addressWord (ho : c.opcSetDdram &&& 0x7F#8 = 0#8) (happ : CommandsApart c) (a : DdramAddr) :
    decodeCtrlCommand c (addressWord c a) = .ok (.setDdramAddr a) := by
  obtain ⟨-, -, hno⟩ := happ
  have hne : ∀ v ∈ [c.cmdFunctionSet, c.cmdEntryMode, c.cmdDisplayOn, c.cmdClearDisplay], addressWord c a ≠ v := by
    rintro _ hv rfl
    exact hno _ hv (addressWord_fields ho a).1
  simp only [List.forall_mem_cons] at hne
  obtain ⟨hf, he, hd, hcl, -⟩ := hne
  rw [decodeCtrlCommand, if_neg hf, if_neg he, if_neg hd, if_neg hcl, decodeAddress_word ho]

/-- Every row of the tables decodes to the instruction it encodes. -/
theorem decodeWith_encodeWith (hc : CfgWellFormed c) (happ : CommandsApart c) {i : Instr}
    (hi : WellFormedWith c i = true) : decodeWith c (encodeWith c i) = .ok i := by
  obtain ⟨hm, -, ho⟩ := hc
  obtain ⟨hfunction, hentry, hdisplay, hclear⟩ := decodeCtrlCommand_commands happ
  cases i with
  | construct geom a => exact decodeConstruct_words (of_decide_eq_true hi)
  | backlight on => exact decodeBit_bitByte on _
  | triple n rs bl => exact decodeTriple_words hm (of_decide_eq_true hi) rs bl
  | nibbleWrite n rs => exact decodeBit_bitByte rs _
  | byteWrite v rs => exact decodeBit_bitByte rs _
  | addressSet a => exact decodeAddress_word ho a _ _
  | init8bit x => exact decodeCtrlNibble_init8bit hm x
  | init4bit x => exact decodeCtrlNibble_init4bit hm happ x
  | functionSet => exact hfunction
  | entryMode => exact hentry
  | displayOn => exact hdisplay
  | clearDisplay => exact hclear
  | setDdramAddr a => exact decodeCtrlCommand_addressWord ho happ a
  | busByte d bl en rs => exact decodeBusByte_word hm d bl en rs
  | init | clear | print | refresh | reserved6 | reserved7 | dataWrite | data => rfl

end

/-- Settles O3: row by row of the tables, the fields read back from the words. -/
theorem decodeOfEncodeIsTheInstruction : Obligations.DecodeOfEncodeIsTheInstruction :=
  have hdefault : CommandsApart Config.cfg := by decide
  ⟨fun _ hi => decodeWith_encodeWith cfg_wellFormed hdefault hi, fun _ hc happ _ hi => decodeWith_encodeWith hc happ hi⟩

/-! ## From a request to its instruction and back -/

section
variable {c : Cfg}

theorem bitByte_of_decodeBit {b : Byte} {k : Bool → Instr} {i : Instr} (h : decodeBit b k = .ok i) :
    ∃ v, bitByte v = b ∧ i = k v := by
  have whole : ∀ b : Byte, b.extractLsb' 1 7 = 0#7 → bitByte (b.getLsbD 0) = b := by decide
  unfold decodeBit at h
  split_ifs at h with hb
  cases h
  exact ⟨_, whole b hb, rfl⟩

theorem bytes_of_decodeNone {i j : Instr} {bs : List Byte} (h : decodeNone i bs = .ok j) : bs = [] ∧ j = i := by
  cases bs with
  | nil => exact ⟨rfl, decodeNone_ok h⟩
  | cons => cases h

theorem bytes_of_decodeOne {k : Byte → Except DecodeError Instr} {bs : List Byte} {i : Instr}
    (h : decodeOne k bs = .ok i) : ∃ b, bs = [b] ∧ k b = .ok i := by
  match bs, h with
  | [b], h => exact ⟨b, rfl, h⟩

theorem bytes_of_decodeTwo {k : Byte → Byte → Except DecodeError Instr} {bs : List Byte} {i : Instr}
    (h : decodeTwo k bs = .ok i) : ∃ a b, bs = [a, b] ∧ k a b = .ok i := by
  match bs, h with
  | [a, b], h => exact ⟨a, b, rfl, h⟩

theorem bytes_of_decodeThree {k : Byte → Byte → Byte → Except DecodeError Instr} {bs : List Byte} {i : Instr}
    (h : decodeThree k bs = .ok i) : ∃ a b d, bs = [a, b, d] ∧ k a b d = .ok i := by
  match bs, h with
  | [a, b, d], h => exact ⟨a, b, d, rfl, h⟩

theorem words_of_decodeConstruct {g a : Byte} {i : Instr} (h : decodeConstruct c g a = .ok i) :
    encodeWith c i = ⟨.host, [0b000#8, g, a]⟩ := by
  have hgeom : ∀ g : Byte, g.extractLsb' 3 5 = 0#5 → 0#5 ++ g.extractLsb' 0 3 = g := by decide
  have haddr : ∀ a : Byte, a.getLsbD 7 = false → 0#1 ++ addressBits a = a := by decide
  unfold decodeConstruct at h
  split_ifs at h with hfits
  cases h
  obtain ⟨hg, ha, -⟩ := hfits
  rw [encodeWith, hgeom g hg, haddr a ha]

/-- The operands of a host request, after its selector. -/
theorem words_of_decodeSelected {op : BitVec 3} {bs : List Byte} {i : Instr} (h : decodeSelected c op bs = .ok i) :
    encodeWith c i = ⟨.host, (0#5 ++ op) :: bs⟩ := by
  unfold decodeSelected at h
  split at h
  case h_1 =>
    obtain ⟨g, a, rfl, h⟩ := bytes_of_decodeTwo h
    exact words_of_decodeConstruct h
  case h_4 =>
    unfold decodePrint at h
    split at h <;> cases h
    rfl
  case h_6 =>
    obtain ⟨b, rfl, h⟩ := bytes_of_decodeOne h
    obtain ⟨v, rfl, rfl⟩ := bitByte_of_decodeBit h
    rfl
  all_goals
    obtain ⟨rfl, rfl⟩ := bytes_of_decodeNone h
    rfl

theorem words_of_decodeHost {bs : List Byte} {i : Instr} (h : decodeHost c bs = .ok i) :
    encodeWith c i = ⟨.host, bs⟩ := by
  have hsel : ∀ b : Byte, b.extractLsb' 3 5 = 0#5 → 0#5 ++ b.extractLsb' 0 3 = b := by decide
  cases bs with
  | nil => cases h
  | cons sel operands =>
    simp only [decodeHost] at h
    split_ifs at h with hs
    rw [words_of_decodeSelected h, hsel sel hs]

theorem words_of_decodeTriple (hc : MasksWellFormed c) {t0 t1 t2 : Byte} {i : Instr}
    (h : decodeTriple c t0 t1 t2 = .ok i) : encodeWith c i = ⟨.triple, [t0, t1, t2]⟩ := by
  unfold decodeTriple at h
  split_ifs at h with hreserved hpulse
  cases h
  rw [not_or, not_not, Bool.not_eq_true] at hreserved
  obtain ⟨hunused, hidle⟩ := hreserved
  obtain ⟨rfl, rfl⟩ := hpulse
  have hbase : tripleWord c (t2 &&& c.nibbleMask) (lineOf c.rsMask t2) (lineOf c.blMask t2) = t2 := by
    rw [tripleWord_eq_busByteWord hc, and_nibbleMask hc, hiNibble_append, ← hidle, busByteWord_fields hc hunused]
  rw [encodeWith, hbase]

/-- Above the address stands the opcode. -/
theorem addressWord_of_decodeAddress {b : Byte} {k : DdramAddr → Instr} {why : DecodeError} {i : Instr}
    (h : decodeAddress c b k (.error why) = .ok i) : ∃ a, addressWord c a = b ∧ i = k a := by
  have halves : ∀ b : Byte, (b &&& 0x80#8) ||| (0#1 ++ addressBits b) = b := by decide
  unfold decodeAddress at h
  split_ifs at h with hop
  cases h
  exact ⟨_, by rw [addressWord, ← hop, halves], rfl⟩

/-- Below the payload stand the bits that are not sent. -/
theorem nibbleWord_loNibble (hc : MasksWellFormed c) {v b : Byte} (h : b &&& c.nibbleMask = v &&& c.nibbleMask) :
    nibbleWord c v (loNibble b) = b := by
  have halves : ∀ b : Byte, (b &&& 0xF0#8) ||| (0#4 ++ loNibble b) = b := by decide
  rw [nibbleWord, ← h, hc.1, halves]

theorem words_of_decodeCtrlNibble (hc : MasksWellFormed c) {b : Byte} {i : Instr} (h : decodeCtrlNibble c b = .ok i) :
    encodeWith c i = ⟨.ctrlNibble, [b]⟩ := by
  unfold decodeCtrlNibble at h
  split_ifs at h with h8 h4 <;> cases h
  · rw [encodeWith, nibbleWord_loNibble hc h8]
  · rw [encodeWith, nibbleWord_loNibble hc h4]

theorem words_of_decodeCtrlCommand {b : Byte} {i : Instr} (h : decodeCtrlCommand c b = .ok i) :
    encodeWith c i = ⟨.ctrlCommand, [b]⟩ := by
  unfold decodeCtrlCommand at h
  split_ifs at h with hfunction hentry hdisplay hclear
  case neg =>
    obtain ⟨a, rfl, rfl⟩ := addressWord_of_decodeAddress h
    rfl
  all_goals
    cases h
    subst b
    rfl

theorem words_of_decodeBusByte (hc : MasksWellFormed c) {b : Byte} {i : Instr} (h : decodeBusByte c b = .ok i) :
    encodeWith c i = ⟨.busByte, [b]⟩ := by
  unfold decodeBusByte at h
  split_ifs at h with hunused
  cases h
  rw [encodeWith, busByteWord_fields hc (not_not.1 hunused)]

/-- No layer drops a bit: what decodes are the words of the instruction. -/
theorem encodeWith_of_decodeWith (hc : MasksWellFormed c) {r : Request} {i : Instr} (h : decodeWith c r = .ok i) :
    encodeWith c i = r := by
  obtain ⟨layer, bytes⟩ := r
  cases layer with
  | host => exact words_of_decodeHost h
  | triple =>
    obtain ⟨t0, t1, t2, rfl, h⟩ := bytes_of_decodeThree h
    exact words_of_decodeTriple hc h
  | nibbleWrite | byteWrite =>
    obtain ⟨n, b, rfl, h⟩ := bytes_of_decodeTwo h
    obtain ⟨rs, rfl, rfl⟩ := bitByte_of_decodeBit h
    rfl
  | addressSet =>
    obtain ⟨b, rfl, h⟩ := bytes_of_decodeOne h
    obtain ⟨a, rfl, rfl⟩ := addressWord_of_decodeAddress h
    rfl
  | dataWrite | ctrlData =>
    obtain ⟨v, rfl, h⟩ := bytes_of_decodeOne h
    cases h
    rfl
  | ctrlNibble =>
    obtain ⟨b, rfl, h⟩ := bytes_of_decodeOne h
    exact words_of_decodeCtrlNibble hc h
  | ctrlCommand =>
    obtain ⟨b, rfl, h⟩ := bytes_of_decodeOne h
    exact words_of_decodeCtrlCommand h
  | busByte =>
    obtain ⟨b, rfl, h⟩ := bytes_of_decodeOne h
    exact words_of_decodeBusByte hc h

end

/-- Settles O4: layer by layer, the bits the decoder checks and those it reads are all the bits. -/
theorem decodedWordsAreTheEncoding : Obligations.DecodedWordsAreTheEncoding :=
  have of_decode : ∀ c, CfgWellFormed c → ∀ r i, decodeWith c r = .ok i →
      encodeWith c i = r ∧ WellFormedWith c i = true :=
    fun _ hc _ _ h => ⟨encodeWith_of_decodeWith hc.1 h, decodeWith_wellFormed h⟩
  ⟨of_decode Config.cfg cfg_wellFormed, of_decode⟩

/-- Settles O2: each word is decoded. -/
theorem writtenOutWordsDecode : Obligations.WrittenOutWordsDecode := by
  unfold Obligations.WrittenOutWordsDecode
  decide

end Sys2Proof.Machine
end

section
/-! PROOFS. What the controller values send (R92, R99), and what BUSBYTE assembles (R81). -/

namespace Sys2Proof.Machine

open Sys2Proof.Safety

/-- In READY an operation that only emits appends its frame and reports `ok`. -/
theorem sends_ready {s : State} {d : Driver} (h : s.life = .ready d) (frame : Driver → List Event) :
    sends s frame = .next { s with trace := s.trace ++ frame d, reply := some .ok } :=
  whenReady_ready _ h

/-- A nibble frame is the five events of R111. -/
theorem nibbleFrame_eq_events (c : Cfg) (n : Byte) (rs : Bool) (d : Driver) :
    nibbleFrame c n rs d = nibbleWriteEvents c d.busAddr d.bl n rs := rfl

/-- A byte frame is the eight events of R112. -/
theorem byteFrame_eq_events (c : Cfg) (v : Byte) (rs : Bool) (d : Driver) :
    byteFrame c v rs d = byteWriteEvents c d.busAddr d.bl v rs := by
  rw [byteFrame_eq, hiPayload, loPayload, baseByte_masked, baseByte_masked]
  rfl

/-- The low four bits of a nibble value are not sent (R92). -/
theorem nibbleFrame_withLowBits {c : Cfg} (hc : MasksWellFormed c) (v : Byte) (x : Nibble) (rs : Bool) (d : Driver) :
    nibbleFrame c (withLowBits c v x) rs d = nibbleFrame c v rs d := by
  have hlow : ∀ x : Nibble, x.zeroExtend 8 &&& 0xF0#8 = 0#8 := by decide
  have hmasked : withLowBits c v x &&& c.nibbleMask = v &&& c.nibbleMask := by
    simp [withLowBits, BitVec.and_or_distrib_right, BitVec.and_assoc, hc.1, hlow]
  rw [nibbleFrame_eq, nibbleFrame_eq, ← baseByte_masked, hmasked, baseByte_masked]

/-- Settles O26: each value is one frame, and the nibble frames show the payload alone. -/
theorem controllerValuesGoOutInTheirFrames : Obligations.ControllerValuesGoOutInTheirFrames := by
  intro s d hd
  have nibble : ∀ v x, sends s (nibbleFrame Config.cfg (withLowBits Config.cfg v x) false) = .next { s with
      trace := s.trace ++ nibbleWriteEvents Config.cfg d.busAddr d.bl v false, reply := some .ok } := fun v x => by
    rw [sends_ready hd, nibbleFrame_withLowBits cfg_wellFormed.1, nibbleFrame_eq_events]
  have byte : ∀ v rs, sends s (byteFrame Config.cfg v rs) = .next { s with
      trace := s.trace ++ byteWriteEvents Config.cfg d.busAddr d.bl v rs, reply := some .ok } := fun v rs => by
    rw [sends_ready hd, byteFrame_eq_events]
  have address : ∀ a : DdramAddr, addressCommand Config.cfg a = 1#1 ++ a := by decide
  refine ⟨nibble 0x30#8, nibble 0x20#8, byte 0x28#8 false, byte 0x06#8 false, byte 0x0C#8 false, byte 0x01#8 false,
    fun a => ?_, fun v => byte v true⟩
  rw [← address]
  exact byte _ false

/-- The bus byte under the default CFG, bit by bit (R81). -/
theorem assembleBusByte_pattern (d : Nibble) (bl en rs : Bool) :
    assembleBusByte Config.cfg d bl en rs = d ++ BitVec.ofBool bl ++ BitVec.ofBool en ++ 0#1 ++ BitVec.ofBool rs := by
  revert d bl en rs
  decide

/-- Settles O27: BUSBYTE only reports, and what it reports is the pattern. -/
theorem busByteAssemblesItsFields : Obligations.BusByteAssemblesItsFields := by
  intro s d bl en rs
  rw [← assembleBusByte_pattern]
  rfl

end Sys2Proof.Machine
end

section
/-! PROOFS. What the framer's own operations do: TRIPLE only reports (R110), NIBBLE_WRITE and BYTE_WRITE send one
transaction (R111, R112). -/

namespace Sys2Proof.Machine

open Sys2Proof.Safety

/-- The triple is the pulse on the base of R87: base, base with the strobe, base. -/
theorem tripleBytes_eq_base (c : Cfg) (n : Byte) (rs bl : Bool) :
    tripleBytes c n rs bl = [base c n rs bl, base c n rs bl ||| c.enMask, base c n rs bl] := rfl

/-- Settles O22: TRIPLE only sets the reply, to the pulse on the base. -/
theorem tripleReturnsOnePulse : Obligations.TripleReturnsOnePulse := by
  intro s n rs bl
  rw [exec_eq_meaningWith, meaningWith, tripleOp, tripleBytes_eq_base, answer]

/-- Settles O23: NIBBLE_WRITE sends the nibble frame, which is the five events. -/
theorem nibbleWriteSendsOneTriple : Obligations.NibbleWriteSendsOneTriple := by
  intro s d n rs hd
  rw [exec_eq_meaningWith, meaningWith, nibbleWriteOp, sends_ready hd, nibbleFrame_eq_events]

/-- Settles O24: BYTE_WRITE sends the byte frame, whose two payloads are masked once or twice alike. -/
theorem byteWriteSendsTwoTriples : Obligations.ByteWriteSendsTwoTriples := by
  intro s d v rs hd
  rw [exec_eq_meaningWith, meaningWith, byteWriteOp, sends_ready hd, byteFrame_eq_events]

end Sys2Proof.Machine
end

section
/-! PROOFS. The lifecycle: what CONSTRUCT leaves (R130, R132, R193), the script of INITIALIZE and what it depends on (R133 to
R137), that no other instruction waits (R139, R159), and what the script makes of a receiver in any state (R134). -/

namespace Sys2Proof.Machine

open Sys2Proof.Safety

/-! ## What a latched nibble does (R69) -/

/-- The three situations of R69. -/
theorem interface_cases (r : Receiver) :
    r.mode = .eightBit ∨ (r.mode = .fourBit ∧ r.half = none) ∨ ∃ h, r.mode = .fourBit ∧ r.half = some h := by
  cases r.mode <;> cases r.half <;> simp

/-- In 8-bit mode it is the high half of a whole value. -/
theorem receiveNibble_eightBit (c : Cfg) {r : Receiver} (n : Nibble) (rs : Bool) (hm : r.mode = .eightBit) :
    receiveNibble c r n rs =
      receiveValue c { r with half := none, latched := r.latched + 1 } (n ++ Config.openLines r.latched) rs := by
  simp only [receiveNibble, hm]

/-- In 4-bit mode at a nibble boundary it is kept as the first of a pair. -/
theorem receiveNibble_first (c : Cfg) {r : Receiver} (n : Nibble) (rs : Bool) (hm : r.mode = .fourBit)
    (hh : r.half = none) : receiveNibble c r n rs = { r with half := some n, latched := r.latched + 1 } := by
  simp only [receiveNibble, hm, hh]

/-- In 4-bit mode after a first nibble it completes the pair. -/
theorem receiveNibble_second (c : Cfg) {r : Receiver} (n : Nibble) (rs : Bool) {h : Nibble} (hm : r.mode = .fourBit)
    (hh : r.half = some h) :
    receiveNibble c r n rs = receiveValue c { r with half := none, latched := r.latched + 1 } (h ++ n) rs := by
  simp only [receiveNibble, hm, hh]

@[simp] theorem receiveCommand_addr (c : Cfg) (r : Receiver) (v : Byte) : (receiveCommand c r v).addr = r.addr := by
  unfold receiveCommand
  split_ifs <;> rfl

@[simp] theorem receiveCommand_half (c : Cfg) (r : Receiver) (v : Byte) : (receiveCommand c r v).half = r.half := by
  unfold receiveCommand
  split_ifs <;> rfl

@[simp] theorem receiveValue_command (c : Cfg) (r : Receiver) (v : Byte) :
    receiveValue c r v false = receiveCommand c r v := rfl

@[simp] theorem receiveValue_addr (c : Cfg) (r : Receiver) (v : Byte) (rs : Bool) :
    (receiveValue c r v rs).addr = r.addr := by
  cases rs with
  | true => rfl
  | false => exact receiveCommand_addr c r v

@[simp] theorem receiveNibble_addr (c : Cfg) (r : Receiver) (n : Nibble) (rs : Bool) :
    (receiveNibble c r n rs).addr = r.addr := by
  rcases interface_cases r with hm | ⟨hm, hh⟩ | ⟨h, hm, hh⟩
  · simp [receiveNibble_eightBit c n rs hm]
  · simp [receiveNibble_first c n rs hm hh]
  · simp [receiveNibble_second c n rs hm hh]

/-- A latched nibble does not change the lines or the selection, and what it does does not depend on them. -/
theorem receiveNibble_lines (c : Cfg) (r : Receiver) (n : Nibble) (rs : Bool) (b : Byte) (sel : Bool) :
    receiveNibble c { r with lines := b, selected := sel } n rs =
      { receiveNibble c r n rs with lines := b, selected := sel } := by
  rcases interface_cases r with hm | ⟨hm, hh⟩ | ⟨h, hm, hh⟩
  · rw [receiveNibble_eightBit c n rs hm, ← receiveValue_lines]
    exact receiveNibble_eightBit c n rs hm
  · rw [receiveNibble_first c n rs hm hh]
    exact receiveNibble_first c n rs hm hh
  · rw [receiveNibble_second c n rs hm hh, ← receiveValue_lines]
    exact receiveNibble_second c n rs hm hh

/-! ## A nibble frame at a receiver in any state (R68, R88) -/

/-- With the strobe idle the frame latches its payload with its RS. -/
theorem receiveAll_nibbleFrame {c : Cfg} (hc : MasksWellFormed c) {d : Driver} {r : Receiver} (n : Byte) (rs : Bool)
    (hidle : StrobeIdle c r) (ha : r.addr = d.busAddr) :
    receiveAll c (nibbleFrame c n rs d) r =
      { receiveNibble c r (hiNibble n) rs with lines := baseByte c n rs d.bl, selected := false } := by
  rw [nibbleFrame, ← ha, receiveAll_transaction, receiveAll_triple hc _ _ _ rfl (by exact hidle)]
  exact congrArg (fun q : Receiver => { q with selected := false }) (receiveNibble_lines c r _ rs _ true)

/-- A byte that reaches a receiver is on its lines, whatever the strobe's fall latched. -/
theorem receive_write_selected (c : Cfg) {r : Receiver} (b : Byte) (hsel : r.selected = true) :
    (receive c r (.write b)).addr = r.addr ∧ (receive c r (.write b)).selected = true ∧
    (receive c r (.write b)).lines = b := by
  rw [receive, if_pos hsel, receiveLines]
  split_ifs
  · rw [receiveNibble_lines c r _ _ b r.selected]
    exact ⟨receiveNibble_addr _ _ _ _, hsel, rfl⟩
  · exact ⟨rfl, hsel, rfl⟩

/-- To a receiver that is selected already a `Begin` of its address says nothing. -/
theorem receive_begin_selected (c : Cfg) {r : Receiver} (hsel : r.selected = true) :
    receive c r (.beginTx r.addr) = r := by
  rw [receive, decide_eq_true rfl, ← hsel]

/-- The first byte of a nibble frame drops a strobe that was left active. The receiver, in whatever state that leaves it,
makes of the rest what it would make of the whole frame. -/
theorem nibbleFrame_drops_strobe {c : Cfg} (hc : MasksWellFormed c) {d : Driver} {r : Receiver} (n : Byte) (rs : Bool)
    (ha : r.addr = d.busAddr) :
    ∃ r', StrobeIdle c r' ∧ r'.addr = d.busAddr ∧
      receiveAll c (nibbleFrame c n rs d) r = receiveAll c (nibbleFrame c n rs d) r' := by
  obtain ⟨haddr, hsel, hlines⟩ := receive_write_selected c (baseByte c n rs d.bl) (r := { r with selected := true }) rfl
  generalize hr' : receive c { r with selected := true } (.write (baseByte c n rs d.bl)) = r' at haddr hsel hlines
  have hidle : StrobeIdle c r' := by rw [StrobeIdle, hlines]; exact (baseByte_lines hc n rs d.bl).1
  have hagain : receive c r' (.write (baseByte c n rs d.bl)) = r' := by
    rw [receive_write_idle _ hsel hidle, ← hlines]
  have hbegin : receive c r' (.beginTx d.busAddr) = r' := by
    rw [← haddr.trans ha, receive_begin_selected c hsel]
  refine ⟨r', hidle, haddr.trans ha, ?_⟩
  simp only [nibbleFrame_eq, receiveAll_cons, hbegin, hagain]
  rw [← hr']
  simp [receive, ha]

/-! ## INITIALIZE at a receiver in any state (R134, R218) -/

/-- How many payloads `0x3` bring a receiver into 8-bit mode: none there; one after a first half `0x3`; two at a nibble
boundary; three after any other first half, which the first of them completes. -/
def threesLeft (r : Receiver) : Nat :=
  match r.mode, r.half with
  | .eightBit, _ => 0
  | .fourBit, some h => if h = 0x3#4 then 1 else 3
  | .fourBit, none => 2

theorem threesLeft_le (r : Receiver) : threesLeft r ≤ 3 := by
  unfold threesLeft
  split
  · omega
  · split_ifs <;> omega
  · omega

theorem threesLeft_le_two {r : Receiver} (hh : r.half = none) : threesLeft r ≤ 2 := by
  cases hm : r.mode <;> simp [threesLeft, hm, hh]

theorem threesLeft_eq_zero {r : Receiver} : threesLeft r = 0 ↔ r.mode = .eightBit := by
  unfold threesLeft
  split
  · simp [*]
  · split_ifs <;> simp [*]
  · simp [*]

/-- A command of high half `0x3` selects 8 bits, whatever its low half. -/
theorem receiveCommand_three (r : Receiver) (x : Nibble) :
    (receiveCommand Config.cfg r (0x3#4 ++ x)).mode = .eightBit := by
  have hother : ∀ x : Nibble, ¬ (0x3#4 ++ x).getLsbD 7 = true ∧ 0x3#4 ++ x ≠ Config.cfg.cmdFunctionSet ∧
      0x3#4 ++ x ≠ Config.cfg.cmdEntryMode ∧ 0x3#4 ++ x ≠ Config.cfg.cmdDisplayOn ∧
      0x3#4 ++ x ≠ Config.cfg.cmdClearDisplay := by decide
  obtain ⟨hbit, hfun, hentry, hon, hclear⟩ := hother x
  rw [receiveCommand, if_neg hbit, if_neg hfun, if_neg hentry, if_neg hon, if_neg hclear]
  simp [modeAfter]

/-- A command of high half `0x2` selects 4 bits: FUNCTION_SET is the one the receiver knows by its value. -/
theorem receiveCommand_two (r : Receiver) (x : Nibble) :
    (receiveCommand Config.cfg r (0x2#4 ++ x)).mode = .fourBit := by
  have hother : ∀ x : Nibble, ¬ (0x2#4 ++ x).getLsbD 7 = true ∧ 0x2#4 ++ x ≠ Config.cfg.cmdEntryMode ∧
      0x2#4 ++ x ≠ Config.cfg.cmdDisplayOn ∧ 0x2#4 ++ x ≠ Config.cfg.cmdClearDisplay := by decide
  obtain ⟨hbit, hentry, hon, hclear⟩ := hother x
  rw [receiveCommand, if_neg hbit]
  by_cases hfun : 0x2#4 ++ x = Config.cfg.cmdFunctionSet
  · rw [if_pos hfun]
  · rw [if_neg hfun, if_neg hentry, if_neg hon, if_neg hclear]
    simp [modeAfter]

/-- Each payload `0x3` brings 8-bit mode one nearer. -/
theorem threesLeft_receiveNibble (r : Receiver) :
    threesLeft (receiveNibble Config.cfg r 0x3#4 false) ≤ threesLeft r - 1 := by
  rcases interface_cases r with hm | ⟨hm, hh⟩ | ⟨h, hm, hh⟩
  · rw [receiveNibble_eightBit _ _ _ hm, receiveValue_command, threesLeft_eq_zero.2 (receiveCommand_three _ _)]
    omega
  · simp [receiveNibble_first _ _ _ hm hh, threesLeft, hm, hh]
  · rw [receiveNibble_second _ _ _ hm hh, receiveValue_command]
    by_cases h3 : h = 0x3#4
    · rw [h3, threesLeft_eq_zero.2 (receiveCommand_three _ _)]
      omega
    · have hleft : threesLeft r = 3 := by simp [threesLeft, hm, hh, h3]
      rw [hleft]
      exact threesLeft_le_two (receiveCommand_half _ _ _)

/-- A receiver at the driver's bus address, the strobe idle, at most `n` payloads `0x3` away from 8-bit mode. -/
structure Wakes (d : Driver) (n : Nat) (r : Receiver) : Prop where
  idle : StrobeIdle Config.cfg r
  addr : r.addr = d.busAddr
  left : threesLeft r ≤ n

/-- A wait says nothing to the receiver. -/
@[simp] theorem receive_wait (c : Cfg) (r : Receiver) (ms : Nat) : receive c r (.wait ms) = r := rfl

@[simp] theorem receiveAll_nibbleStep (c : Cfg) (d : Driver) (k : Fin 4) (r : Receiver) :
    receiveAll c (nibbleStep c d k) r = receiveAll c (nibbleFrame c (c.initNibble k) false d) r := by
  simp [nibbleStep]

@[simp] theorem receiveAll_commandStep (c : Cfg) (d : Driver) (cmd : Byte) (k : Fin 4) (r : Receiver) :
    receiveAll c (commandStep c d cmd k) r = receiveAll c (byteFrame c cmd false d) r := by
  simp [commandStep]

theorem Wakes.three {d : Driver} {n : Nat} {r : Receiver} (h : Wakes d n r) {k : Fin 4} (hk : k ≠ 3) :
    Wakes d (n - 1) (receiveAll Config.cfg (nibbleStep Config.cfg d k) r) := by
  have hthree : ∀ k : Fin 4, k ≠ 3 → hiNibble (Config.cfg.initNibble k) = 0x3#4 := by decide
  rw [receiveAll_nibbleStep, receiveAll_nibbleFrame cfg_wellFormed.1 _ _ h.idle h.addr, hthree k hk]
  refine ⟨(baseByte_lines cfg_wellFormed.1 _ _ _).1, (receiveNibble_addr _ _ _ _).trans h.addr, ?_⟩
  exact (threesLeft_receiveNibble r).trans (Nat.sub_le_sub_right h.left 1)

/-- The first nibble write reaches a receiver whose strobe may be active. -/
theorem wakes_first_nibbleStep {d : Driver} {r : Receiver} (ha : r.addr = d.busAddr) :
    Wakes d 2 (receiveAll Config.cfg (nibbleStep Config.cfg d 0) r) := by
  obtain ⟨r', hidle, haddr, heq⟩ :=
    nibbleFrame_drops_strobe cfg_wellFormed.1 (Config.cfg.initNibble 0) false ha
  rw [receiveAll_nibbleStep, heq, ← receiveAll_nibbleStep]
  exact Wakes.three ⟨hidle, haddr, threesLeft_le r'⟩ (by decide)

/-- The fourth nibble write takes a receiver from 8-bit into 4-bit mode at a nibble boundary. -/
theorem Wakes.inStep {d : Driver} {r : Receiver} (h : Wakes d 0 r) :
    InStep Config.cfg (receiveAll Config.cfg (nibbleStep Config.cfg d 3) r) ∧
    (receiveAll Config.cfg (nibbleStep Config.cfg d 3) r).addr = d.busAddr := by
  have htwo : hiNibble (Config.cfg.initNibble 3) = 0x2#4 := by decide
  have hmode : r.mode = .eightBit := threesLeft_eq_zero.1 (Nat.le_zero.1 h.left)
  rw [receiveAll_nibbleStep, receiveAll_nibbleFrame cfg_wellFormed.1 _ _ h.idle h.addr, htwo,
    receiveNibble_eightBit _ _ _ hmode, receiveValue_command]
  exact ⟨⟨receiveCommand_two _ _, receiveCommand_half _ _ _, (baseByte_lines cfg_wellFormed.1 _ _ _).1⟩,
    (receiveCommand_addr _ _ _).trans h.addr⟩

/-! What the receiver does with the four configuration commands (R71). -/

theorem receiveCommand_functionSet (r : Receiver) :
    receiveCommand Config.cfg r Config.cfg.cmdFunctionSet =
      { r with mode := .fourBit, settings := { r.settings with twoLines := true, smallFont := true } } := rfl

theorem receiveCommand_entryMode (r : Receiver) :
    receiveCommand Config.cfg r Config.cfg.cmdEntryMode =
      { r with settings := { r.settings with increment := true, shift := false } } := rfl

theorem receiveCommand_displayOn (r : Receiver) :
    receiveCommand Config.cfg r Config.cfg.cmdDisplayOn =
      { r with settings := { r.settings with displayOn := true, cursor := false, blink := false } } := rfl

theorem receiveCommand_clearDisplay (r : Receiver) :
    receiveCommand Config.cfg r Config.cfg.cmdClearDisplay = { r with ac := 0#7, ddram := fun _ => 0x20#8 } := rfl

/-- A command write of the script at a receiver in step does what the command says, and leaves the receiver in step if the
command leaves it in 4-bit mode. -/
theorem receiveAll_command {c : Cfg} (hc : MasksWellFormed c) {d : Driver} {r : Receiver} (hr : InStep c r)
    (ha : r.addr = d.busAddr) (cmd : Byte) (k : Fin 4)
    (hmode : (receiveCommand c { r with latched := r.latched + 2 } cmd).mode = .fourBit) :
    let r' := receiveAll c (commandStep c d cmd k) r
    let q := receiveCommand c { r with latched := r.latched + 2 } cmd
    (InStep c r' ∧ r'.addr = d.busAddr) ∧ r'.ac = q.ac ∧ r'.ddram = q.ddram ∧ r'.settings = q.settings := by
  simp only [receiveAll_commandStep, receiveAll_byteFrame hc _ _ hr ha, receiveValue_command, and_self, and_true]
  obtain ⟨-, hhalf, -⟩ := hr
  exact ⟨⟨hmode, (receiveCommand_half _ _ _).trans hhalf, (baseByte_lines hc _ _ _).1⟩,
    (receiveCommand_addr _ _ _).trans ha⟩

/-- The four nibble writes of the script bring a receiver from any state in step. -/
theorem nibbleSteps_inStep {d : Driver} {r : Receiver} (ha : r.addr = d.busAddr) :
    let r' := receiveAll Config.cfg (nibbleStep Config.cfg d 0 ++ nibbleStep Config.cfg d 1 ++ nibbleStep Config.cfg d 2 ++
      nibbleStep Config.cfg d 3) r
    InStep Config.cfg r' ∧ r'.addr = d.busAddr := by
  simp only [receiveAll_append]
  exact (((wakes_first_nibbleStep ha).three (k := 1) (by decide)).three (k := 2) (by decide)).inStep

/-- Settles O43: three payloads `0x3` bring the receiver into 8-bit mode whatever it was in the middle of, the payload
`0x2` into 4-bit mode at a nibble boundary, and there it reads the four commands. -/
theorem initializeResynchronizesTheReceiver : Obligations.InitializeResynchronizesTheReceiver := by
  intro s t d r hd ht ha
  rw [exec_init_ready hd] at ht
  cases ht
  refine ⟨_, rfl, ?_⟩
  obtain ⟨hr, ha⟩ := nibbleSteps_inStep ha
  simp only [receiveAll_append] at hr ha
  simp only [initEvents, receiveAll_append, receiveAll_cons, receiveAll_nil, receive_wait]
  obtain ⟨⟨hr, ha⟩, -, -, hset1⟩ := receiveAll_command cfg_wellFormed.1 hr ha Config.cfg.cmdFunctionSet 0 rfl
  obtain ⟨⟨hr, ha⟩, -, -, hset2⟩ := receiveAll_command cfg_wellFormed.1 hr ha Config.cfg.cmdEntryMode 1 hr.1
  obtain ⟨⟨hr, ha⟩, -, -, hset3⟩ := receiveAll_command cfg_wellFormed.1 hr ha Config.cfg.cmdDisplayOn 2 hr.1
  obtain ⟨⟨hr, -⟩, hac, hddram, hset4⟩ := receiveAll_command cfg_wellFormed.1 hr ha Config.cfg.cmdClearDisplay 3 hr.1
  refine ⟨hr, hac, congrFun hddram, ?_⟩
  rw [hset4, receiveCommand_clearDisplay, hset3, receiveCommand_displayOn, hset2, receiveCommand_entryMode, hset1,
    receiveCommand_functionSet]

/-! ## CONSTRUCT (R130, R132, R193) -/

/-- The code of a geometry below `NGEOM` selects it (R95). -/
theorem geomOfCode_geomCode {c : Cfg} {g : Geom} (hg : (geomCode g).toNat < c.nGeom) :
    geomOfCode c (geomCode g) = some g := by
  rw [geomOfCode, if_pos hg]
  cases g <;> rfl

/-- A code from `NGEOM` on selects none (R95). -/
theorem geomOfCode_none {c : Cfg} {code : BitVec 3} (h : c.nGeom ≤ code.toNat) : geomOfCode c code = none :=
  if_neg (Nat.not_lt.2 h)

/-- The Driver State of R35 is what R130 asks for. -/
theorem constructed_freshDriver (c : Cfg) (g : Geom) (a : BusAddr) : Constructed c g a (freshDriver g a) :=
  ⟨rfl, rfl, rfl, fun _ hi => loadCell_eq c (freshDriver g a) hi, fun _ hi => loadCell_outside c (freshDriver g a) hi⟩

theorem construct_resets {c : Cfg} (s : State) {g : Geom} (a : BusAddr) (hg : (geomCode g).toNat < c.nGeom) :
    meaningWith c (.construct (geomCode g) a) s =
      .next { s with life := .ready (freshDriver g a), faultCode := 0, reply := some .ok } := by
  rw [meaningWith, constructOp, geomOfCode_geomCode hg]
  rfl

theorem construct_faults {c : Cfg} (s : State) {code : BitVec 3} (a : BusAddr) (h : c.nGeom ≤ code.toNat) :
    meaningWith c (.construct code a) s =
      .next { s with life := .faulted, faultCode := c.faultUnsupportedGeometry,
                     reply := some (.fault c.faultUnsupportedGeometry code) } := by
  rw [meaningWith, constructOp, geomOfCode_none h]
  rfl

/-- Settles O5: the code alone decides; the default CFG has the six geometries. -/
theorem constructResetsOrFaults : Obligations.ConstructResetsOrFaults := by
  have hsix : ∀ g, (geomCode g).toNat < Config.cfg.nGeom := fun g => by cases g <;> decide
  simp only [Obligations.ConstructResetsOrFaults, exec_eq_meaningWith]
  exact ⟨fun s g a => ⟨_, construct_resets s a (hsix g), constructed_freshDriver _ g a⟩,
    fun s code a h => construct_faults s a h,
    fun c s g a hg => ⟨_, construct_resets s a hg, constructed_freshDriver c g a⟩,
    fun c s code a h => construct_faults s a h⟩

/-! ## The script of INITIALIZE (R133, R135 to R137) -/

/-- What INITIALIZE sends is the script of R133, which names BUSADDR and BL and nothing else of the Driver State. -/
theorem initEvents_eq_scriptEvents (c : Cfg) (d : Driver) : initEvents c d = scriptEvents c d.busAddr d.bl := by
  simp only [initEvents, nibbleStep, commandStep, nibbleFrame_eq_events, byteFrame_eq_events, scriptEvents,
    List.append_assoc]

theorem length_scriptEvents (c : Cfg) (a : BusAddr) (bl : Bool) : (scriptEvents c a bl).length = 61 := by
  simp [scriptEvents, nibbleWriteEvents, byteWriteEvents]

theorem init_ready (c : Cfg) {s : State} {d : Driver} (hd : s.life = .ready d) :
    meaningWith c .init s = .next { s with trace := s.trace ++ scriptEvents c d.busAddr d.bl, reply := some .ok } := by
  rw [meaningWith, initOp, sends_ready hd, initEvents_eq_scriptEvents]

theorem init_notReady (c : Cfg) {s : State} (hs : driverOf s.life = none) :
    meaningWith c .init s = .next (turnedAway s) :=
  whenReady_notReady _ hs

/-- Settles O6: INITIALIZE is `sends` of the script. -/
theorem initializeSendsTheScript : Obligations.InitializeSendsTheScript := by
  simp only [Obligations.InitializeSendsTheScript, exec_eq_meaningWith]
  exact ⟨fun _ => init_notReady _, fun _ _ => init_ready _, fun c _ _ => init_ready c⟩

/-- Settles O21: the script names no other register. -/
theorem initializeIgnoresGeometryAndBuffer : Obligations.InitializeIgnoresGeometryAndBuffer := by
  intro s s' t t' d d' hd hd' ha hbl ht ht'
  rw [exec_eq_meaningWith, init_ready _ hd] at ht
  rw [exec_eq_meaningWith, init_ready _ hd', ← ha, ← hbl] at ht'
  cases ht
  cases ht'
  exact ⟨_, length_scriptEvents _ _ _, rfl, rfl⟩

/-! ## Waits (R139, R159) -/

@[simp] theorem countP_isWait_nibbleFrame (c : Cfg) (n : Byte) (rs : Bool) (d : Driver) :
    (nibbleFrame c n rs d).countP isWait = 0 := rfl

@[simp] theorem countP_isWait_byteFrame (c : Cfg) (v : Byte) (rs : Bool) (d : Driver) :
    (byteFrame c v rs d).countP isWait = 0 := rfl

/-- Nothing waits in a run of pieces in which nothing does. -/
theorem countP_isWait_flatMap {α : Type} (l : List α) {f : α → List Event} (h : ∀ a, (f a).countP isWait = 0) :
    (l.flatMap f).countP isWait = 0 := by
  simp [List.countP_flatMap, Function.comp_def, h]

theorem countP_isWait_rowFrames (c : Cfg) (d : Driver) (r : Nat) : (rowFrames c d r).countP isWait = 0 := by
  have hcells : (cellFrames c d (r * cols c d.geom) (cols c d.geom)).countP isWait = 0 :=
    countP_isWait_flatMap _ fun _ => countP_isWait_byteFrame _ _ _ _
  rw [rowFrames, List.countP_append, hcells, addressFrame, countP_isWait_byteFrame]

/-- Settles O35: of the instructions that send anything, only INITIALIZE sends more than frames. -/
theorem onlyInitializeWaits : Obligations.OnlyInitializeWaits := by
  intro s t i h hi
  cases exec_effect h with
  | scripted => exact absurd rfl hi
  | refreshed d => exact ⟨_, rfl, countP_isWait_flatMap _ (countP_isWait_rowFrames _ d)⟩
  | nibbleSent => exact ⟨_, rfl, countP_isWait_nibbleFrame _ _ _ _⟩
  | byteSent => exact ⟨_, rfl, countP_isWait_byteFrame _ _ _ _⟩
  | constructed | faulted | reserved | tripled | assembled | notReady | cleared | printed | ignored | lit =>
    exact ⟨[], (List.append_nil _).symm, rfl⟩

end Sys2Proof.Machine
end

section
/-! PROOFS. The translator: ADDRESS_SET and DATA_WRITE send byte frames (R150, R151), and REFRESH sends the rows of the map,
each an address-set and its cells (R152), with the counts of R154 and the bases of R155, from the Driver State alone
(R156). -/

namespace Sys2Proof.Machine

open Sys2Proof.Safety

/-! ## ADDRESS_SET and DATA_WRITE (R93, R150, R151) -/

theorem addressFrame_eq_events (c : Cfg) (a : DdramAddr) (d : Driver) :
    addressFrame c a d = byteWriteEvents c d.busAddr d.bl (addressCommand c a) false :=
  byteFrame_eq_events c _ false d

theorem dataFrame_eq_events (c : Cfg) (v : Byte) (d : Driver) :
    dataFrame c v d = byteWriteEvents c d.busAddr d.bl v true :=
  byteFrame_eq_events c v true d

/-- The command byte has the address in bits 6..0 (R93). -/
theorem addressCommand_eq_append (c : Cfg) (a : DdramAddr) : addressCommand c a = c.opcSetDdram ||| (0#1 ++ a) := by
  rw [addressCommand, BitVec.zeroExtend, BitVec.setWidth_eq_append (by decide)]
  rfl

/-- Settles O25: both operations send one byte frame. -/
theorem addressSetAndDataWriteSendFrames : Obligations.AddressSetAndDataWriteSendFrames := by
  refine fun s d hd => ⟨fun a => ?_, fun v => ?_⟩
  · rw [exec_eq_meaningWith, meaningWith, addressSetOp, sends_ready hd, addressFrame_eq_events, addressCommand_eq_append]
  · rw [exec_eq_meaningWith, meaningWith, dataWriteOp, sends_ready hd, dataFrame_eq_events]

/-! ## REFRESH, row by row (R58, R152) -/

/-- The base of a row has 7 bits: R6 bounds the row's end, and an empty row starts at its `ROWBASE`. -/
theorem segmentBase_lt {c : Cfg} (hc : CfgWellFormed c) {g : Geom} {r : Nat} (hr : r < rows c g) :
    segmentBase c g r < 0x80 := by
  obtain ⟨-, hend, -⟩ := mapWellFormed hc g
  have hrow := hend r (List.mem_range.2 hr)
  by_cases hcols : cols c g = 0
  · have := (rowBase c r).isLt
    simpa [segmentBase, hcols] using this
  · omega

/-- A base of 7 bits goes into the command byte whole. -/
theorem addressCommand_ofNat (c : Cfg) {n : Nat} (hn : n < 0x80) :
    addressCommand c (BitVec.ofNat 7 n) = c.opcSetDdram ||| BitVec.ofNat 8 n := by
  rw [addressCommand, BitVec.zeroExtend, BitVec.setWidth_ofNat_of_le_of_lt (by decide) hn]

theorem cellFrames_eq_cellEvents (c : Cfg) (d : Driver) (r : Nat) :
    cellFrames c d (r * cols c d.geom) (cols c d.geom) = cellEvents c d r := by
  simp only [cellFrames, dataFrame_eq_events, cellEvents]

theorem rowFrames_eq_rowEvents {c : Cfg} (hc : CfgWellFormed c) (d : Driver) {r : Nat} (hr : r < rows c d.geom) :
    rowFrames c d r = rowEvents c d r := by
  rw [rowFrames, addressFrame_eq_events, addressCommand_ofNat c (segmentBase_lt hc hr), cellFrames_eq_cellEvents]
  rfl

theorem rowFrames_eq_refreshRows {c : Cfg} (hc : CfgWellFormed c) (d : Driver) :
    (List.range (rows c d.geom)).flatMap (rowFrames c d) = refreshRows c d :=
  List.flatMap_congr fun _ hr => rowFrames_eq_rowEvents hc d (List.mem_range.1 hr)

/-- In READY, REFRESH appends the rows and writes no register. -/
theorem refresh_ready {c : Cfg} (hc : CfgWellFormed c) {s : State} {d : Driver} (hd : s.life = .ready d) :
    meaningWith c .refresh s = .next { s with trace := s.trace ++ refreshRows c d, reply := some .ok } := by
  rw [meaningWith, refreshOp, whenReady_ready _ hd, refreshEvents_eq, rowFrames_eq_refreshRows hc]
  rfl

/-- `exec_refresh_ready` with the rows written out from the rules. -/
theorem exec_refresh_rows {s : State} {d : Driver} (hd : s.life = .ready d) :
    exec .refresh s = .next { s with trace := s.trace ++ refreshRows Config.cfg d, reply := some .ok } :=
  (exec_eq_meaningWith _ s).trans (refresh_ready cfg_wellFormed hd)

/-- Settles O14: the frames of each row are its events. -/
theorem refreshSendsRowByRow : Obligations.RefreshSendsRowByRow := by
  refine ⟨fun s hs => whenReady_notReady _ hs, fun s d hd => exec_refresh_rows hd, fun c s d hc hd => ?_⟩
  rw [execWith_wellFormed hc, refresh_ready hc hd]

/-! ## Counts (R154, R159) -/

/-- Pieces that each hold `n` of something hold `n` times their number of it. -/
theorem countP_flatMap_const {α β : Type} {p : β → Bool} {f : α → List β} {n : Nat} (l : List α)
    (h : ∀ a, (f a).countP p = n) : (l.flatMap f).countP p = l.length * n := by
  simp [List.countP_flatMap, Function.comp_def, h]

/-- What REFRESH sends of anything that is `m` times in each address-set and `n` times in each data write. -/
theorem countP_refreshRows {c : Cfg} {d : Driver} {p : Event → Bool} {m n : Nat}
    (hcommand : ∀ v, (byteWriteEvents c d.busAddr d.bl v false).countP p = m)
    (hdata : ∀ v, (byteWriteEvents c d.busAddr d.bl v true).countP p = n) :
    (refreshRows c d).countP p = rows c d.geom * (m + cols c d.geom * n) := by
  have hrow : ∀ r, (rowEvents c d r).countP p = m + cols c d.geom * n := fun r => by
    rw [rowEvents, List.countP_append, hcommand, cellEvents, countP_flatMap_const _ fun _ => hdata _, List.length_range]
  rw [refreshRows, countP_flatMap_const _ hrow, List.length_range]

theorem length_refreshRows (c : Cfg) (d : Driver) :
    (refreshRows c d).length = 8 * (nCells c d.geom + rows c d.geom) := by
  rw [← List.countP_true, countP_refreshRows (m := 8) (n := 8) (fun _ => rfl) (fun _ => rfl), nCells]
  ring

@[simp] theorem isCommandWrite_beginTx (a : BusAddr) : isCommandWrite (.beginTx a) = false := rfl
@[simp] theorem isCommandWrite_endTx : isCommandWrite .endTx = false := rfl
@[simp] theorem isDataWrite_beginTx (a : BusAddr) : isDataWrite (.beginTx a) = false := rfl
@[simp] theorem isDataWrite_endTx : isDataWrite .endTx = false := rfl
@[simp] theorem isDataWrite_write (b : Byte) : isDataWrite (.write b) = !isCommandWrite (.write b) := rfl

/-- Every byte of a strobe pulse shows the RS of its frame (R82). -/
theorem isCommandWrite_pulse (n : Byte) (rs bl : Bool) :
    isCommandWrite (.write (base Config.cfg n rs bl)) = !rs ∧
    isCommandWrite (.write (base Config.cfg n rs bl ||| Config.cfg.enMask)) = !rs := by
  revert n rs bl
  decide

theorem countP_isCommandWrite_byteWriteEvents (a : BusAddr) (bl : Bool) (v : Byte) (rs : Bool) :
    (byteWriteEvents Config.cfg a bl v rs).countP isCommandWrite = if rs then 0 else 6 := by
  cases rs <;> simp [byteWriteEvents, isCommandWrite_pulse]

theorem countP_isDataWrite_byteWriteEvents (a : BusAddr) (bl : Bool) (v : Byte) (rs : Bool) :
    (byteWriteEvents Config.cfg a bl v rs).countP isDataWrite = if rs then 6 else 0 := by
  cases rs <;> simp [byteWriteEvents, isCommandWrite_pulse]

/-- Settles O15: a row is one command frame and `COLS` data frames. -/
theorem refreshCounts : Obligations.RefreshCounts := by
  intro s t d hd h
  rw [exec_refresh_rows hd] at h
  cases h
  refine ⟨_, rfl, length_refreshRows _ d, ?begins, ?commands, ?data, ?waits⟩
  case begins =>
    rw [countP_refreshRows (m := 1) (n := 1) (fun _ => rfl) (fun _ => rfl)]
    ring
  case commands =>
    rw [countP_refreshRows (m := 6) (n := 0) (fun v => countP_isCommandWrite_byteWriteEvents _ _ v false)
      (fun v => countP_isCommandWrite_byteWriteEvents _ _ v true)]
    ring
  case data =>
    rw [countP_refreshRows (m := 0) (n := 6) (fun v => countP_isDataWrite_byteWriteEvents _ _ v false)
      (fun v => countP_isDataWrite_byteWriteEvents _ _ v true)]
    ring
  case waits =>
    rw [countP_refreshRows (m := 0) (n := 0) (fun _ => rfl) (fun _ => rfl)]
    ring

/-! ## Repetition (R156) -/

/-- Settles O18: the rows that REFRESH sends are a function of the Driver State. -/
theorem repeatedRefreshSendsTheSame : Obligations.RepeatedRefreshSendsTheSame := by
  intro s s' t t' d hd hd' ht ht'
  rw [exec_refresh_rows hd] at ht
  rw [exec_refresh_rows hd'] at ht'
  cases ht
  cases ht'
  exact ⟨_, length_refreshRows _ d, rfl, rfl⟩

/-! ## The lower rows (R155) -/

/-- Two rows further down the base is the same `ROWBASE`, one row length further on. -/
theorem segmentBase_add_two (c : Cfg) (g : Geom) (r : Nat) :
    segmentBase c g (r + 2) = segmentBase c g r + cols c g := by
  rw [segmentBase, segmentBase, rowBase, rowBase, Nat.add_mod_right, Nat.add_div_right r (by decide), Nat.succ_mul,
    Nat.add_assoc]

/-- Settles O16: the four rows of 16x4, written out. -/
theorem lowerRowsReuseTheBases : Obligations.LowerRowsReuseTheBases := by
  refine ⟨segmentBase_add_two, by decide, fun s t d hd hg h => ?_⟩
  rw [exec_refresh_rows hd] at h
  cases h
  cases d
  cases hg
  have hrows : List.range (rows Config.cfg .g16x4) = [0, 1, 2, 3] := rfl
  simp only [refreshRows, hrows, List.flatMap_cons, List.flatMap_nil, List.append_nil, rowEvents, List.append_assoc]
  rfl

end Sys2Proof.Machine
end

section
/-! PROOFS. CLEAR, PRINT and BACKLIGHT (R170 to R177): outside READY each is turned away; in READY each writes its own
register and emits nothing. PRINT's loop is described cell by cell in `read_printRun`. -/

namespace Sys2Proof.Machine

open Sys2Proof.Safety

/-! ## CLEAR and BACKLIGHT (R170, R176) -/

/-- Settles O10: CLEAR leaves the blank buffer, which reads as `BLANK` everywhere. -/
theorem clearBlanksEveryCell : Obligations.ClearBlanksEveryCell := by
  refine ⟨fun s hs => whenReady_notReady _ hs, fun s d hd => ⟨Memory.blank, whenReady_ready _ hd, fun i hi => ?_⟩⟩
  rw [loadCell_eq _ { d with buf := Memory.blank } hi, Memory.read_blank]

/-- Settles O13: the READY check, then the write of BL. -/
theorem backlightWritesTheFlag : Obligations.BacklightWritesTheFlag :=
  ⟨fun _ _ hs => whenReady_notReady _ hs, fun _ _ _ hd => whenReady_ready _ hd⟩

/-! ## The loop of PRINT, cell by cell (R97, R171) -/

@[simp] theorem effectiveText_nil (c : Cfg) : effectiveText c [] = [] := rfl

theorem effectiveText_cons_terminator (c : Cfg) (rest : List Byte) : effectiveText c (c.terminator :: rest) = [] := by
  simp [effectiveText]

theorem effectiveText_cons {c : Cfg} {b : Byte} (h : b ≠ c.terminator) (rest : List Byte) :
    effectiveText c (b :: rest) = b :: effectiveText c rest := by
  simp [effectiveText, h]

/-- The number of cells a PRINT from column `col` on writes (R171). -/
def printLength (c : Cfg) (g : Geom) (col : Nat) (text : List Byte) : Nat :=
  min (cols c g - col) (effectiveText c text).length

/-- A turn that stores a byte leaves one cell less to write. -/
theorem printLength_cons {c : Cfg} {g : Geom} {col : Nat} {b : Byte} (hcol : col < cols c g) (hb : b ≠ c.terminator)
    (rest : List Byte) : printLength c g col (b :: rest) = printLength c g (col + 1) rest + 1 := by
  rw [printLength, printLength, effectiveText_cons hb, List.length_cons]
  omega

/-- The loop stops where no cell is left to write: at the row's end or at the terminator. -/
theorem printLength_stop {c : Cfg} {g : Geom} {col : Nat} {b : Byte} (h : ¬ (col < cols c g ∧ b ≠ c.terminator))
    (rest : List Byte) : printLength c g col (b :: rest) = 0 := by
  by_cases hcol : col < cols c g
  · obtain rfl : b = c.terminator := by_contra fun hb => h ⟨hcol, hb⟩
    simp [printLength, effectiveText_cons_terminator]
  · rw [printLength, Nat.sub_eq_zero_of_le (Nat.not_lt.1 hcol), Nat.zero_min]

/-- From its first cell on, the loop leaves the effective part of the text; every other cell is as before. -/
theorem read_printRun {c : Cfg} {g : Geom} {row : Nat} {text : List Byte} {col : Nat} {m m' : Memory}
    (h : printRun c g row col text m = some m') (i : Nat) :
    some (Memory.read c m' i) =
      if cellOffset c g row col ≤ i ∧ i < cellOffset c g row col + printLength c g col text then
        (effectiveText c text)[i - cellOffset c g row col]?
      else some (Memory.read c m i) := by
  induction text generalizing col m with
  | nil =>
    cases h
    exact (if_neg (by simp [printLength])).symm
  | cons b rest ih =>
    rcases printRun_cons h with ⟨-, hcol, hb, hrest⟩ | ⟨hstop, rfl⟩
    · have hnext : cellOffset c g row (col + 1) = cellOffset c g row col + 1 := rfl
      rw [ih hrest, printLength_cons hcol hb, effectiveText_cons hb, Memory.read_write, hnext]
      rcases Nat.lt_trichotomy i (cellOffset c g row col) with hlt | rfl | hgt
      · rw [if_neg (by omega), if_neg (by omega), if_neg (by omega)]
      · simp
      · have hne : i ≠ cellOffset c g row col := by omega
        have hpos : i - cellOffset c g row col ≠ 0 := by omega
        rw [List.getElem?_cons, if_neg hpos, if_neg hne, Nat.sub_sub]
        exact if_congr (by omega) rfl rfl
    · rw [printLength_stop hstop, if_neg (by omega)]

/-! ## PRINT (R171 to R173) -/

theorem inGrid_iff (c : Cfg) (g : Geom) (row col : Byte) :
    inGrid c g row col = true ↔ row.toNat < rows c g ∧ col.toNat < cols c g := by
  simp [inGrid]

theorem print_notReady (c : Cfg) {s : State} (row col : Byte) (text : List Byte) (hs : driverOf s.life = none) :
    meaningWith c (.print row col text) s = .next (turnedAway s) :=
  whenReady_notReady _ hs

/-- Inside the grid PRINT leaves the buffer its loop ends with. -/
theorem print_inside {c : Cfg} {s : State} {d : Driver} {row col : Byte} {text : List Byte} {m : Memory}
    (hd : s.life = .ready d) (hg : inGrid c d.geom row col = true)
    (hm : printRun c d.geom row.toNat col.toNat text d.buf = some m) :
    meaningWith c (.print row col text) s = .next { s with life := .ready { d with buf := m }, reply := some .ok } := by
  rw [meaningWith, printOp, whenReady_ready _ hd, if_pos hg, hm]
  rfl

/-- Outside the grid PRINT leaves everything (R172). -/
theorem print_outside {c : Cfg} {s : State} {d : Driver} {row col : Byte} (text : List Byte)
    (hd : s.life = .ready d) (hg : ¬ inGrid c d.geom row col = true) :
    meaningWith c (.print row col text) s = .next { s with reply := some .ok } := by
  rw [meaningWith, printOp, whenReady_ready _ hd, if_neg hg]
  rfl

/-- What PRINT writes ends with its row, so inside the buffer space (R173). -/
theorem printEnd_le {c : Cfg} {g : Geom} {row col : Nat} (hrow : row < rows c g) (hcol : col < cols c g)
    (text : List Byte) : cellOffset c g row col + printLength c g col text ≤ nCells c g := by
  have hlast : cellOffset c g row (cols c g - 1) < nCells c g := cellOffset_lt hrow (by omega)
  have hlen : printLength c g col text ≤ cols c g - col := Nat.min_le_left _ _
  unfold cellOffset at *
  omega

/-- The loop's buffer is the one R171 asks for, on every offset. -/
theorem printed_of_printRun {c : Cfg} {d : Driver} {row col : Byte} {text : List Byte} {m : Memory}
    (hg : inGrid c d.geom row col = true) (hm : printRun c d.geom row.toNat col.toNat text d.buf = some m) :
    Printed c d row col text m := by
  intro i
  obtain ⟨hrow, hcol⟩ := (inGrid_iff _ _ _ _).1 hg
  simp only [hrow, hcol, true_and]
  by_cases hi : i < nCells c d.geom
  · rw [loadCell_eq c { d with buf := m } hi, loadCell_eq c d hi]
    exact read_printRun hm i
  · have hout := Nat.not_lt.1 hi
    have hend : ¬ i < cellOffset c d.geom row.toNat col.toNat + printLength c d.geom col.toNat text :=
      Nat.not_lt.2 ((printEnd_le hrow hcol text).trans hout)
    rw [loadCell_outside c { d with buf := m } hout, loadCell_outside c d hout]
    exact (if_neg fun h => hend h.2).symm

/-- Outside the grid the buffer as it stands is the one R172 asks for. -/
theorem printed_outside {c : Cfg} {d : Driver} {row col : Byte} (text : List Byte)
    (hg : ¬ inGrid c d.geom row col = true) : Printed c d row col text d.buf := fun _ =>
  (if_neg fun ⟨hrow, hcol, _⟩ => hg ((inGrid_iff _ _ _ _).2 ⟨hrow, hcol⟩)).symm

/-- PRINT in READY, inside and outside the grid. -/
theorem print_ready (c : Cfg) {s : State} {d : Driver} (row col : Byte) (text : List Byte) (hd : s.life = .ready d) :
    ∃ m, meaningWith c (.print row col text) s =
        .next { s with life := .ready { d with buf := m }, reply := some .ok } ∧
      Printed c d row col text m := by
  by_cases hg : inGrid c d.geom row col = true
  · obtain ⟨m, hm⟩ := printRun_some (row_lt_of_inGrid hg) text col.toNat d.buf
    exact ⟨m, print_inside hd hg hm, printed_of_printRun hg hm⟩
  · exact ⟨d.buf, by rw [print_outside text hd hg, ← hd], printed_outside text hg⟩

/-- Settles O11: the loop of PRINT, cell by cell, under every CFG. -/
theorem printCopiesTheEffectiveText : Obligations.PrintCopiesTheEffectiveText := by
  simp only [Obligations.PrintCopiesTheEffectiveText, exec_eq_meaningWith]
  exact ⟨fun _ row col text => print_notReady _ row col text, fun _ _ row col text => print_ready _ row col text,
    fun c _ _ row col text => print_ready c row col text⟩

/-- Settles O12: either bound fails the test of the grid. -/
theorem printOutsideTheGridIsANoOp : Obligations.PrintOutsideTheGridIsANoOp := by
  intro s d row col text hd hout
  have hg : ¬ inGrid Config.cfg d.geom row col = true := by
    rw [inGrid_iff]
    omega
  rw [exec_eq_meaningWith, print_outside text hd hg]

/-! ## No event (R131, R177) -/

theorem isConstruct_iff (i : Instr) : isConstruct i = true ↔ ∃ code a, i = .construct code a := by
  cases i <;> simp [isConstruct]

/-- Settles O33: the instructions that append to TRACE are REFRESH, INITIALIZE and the senders of frames. -/
theorem bufferOperationsEmitNothing : Obligations.BufferOperationsEmitNothing := by
  intro s t i h hi
  have hsilent : sendsFrame i = false := by
    rw [isConstruct_iff] at hi
    rcases hi with ⟨code, a, rfl⟩ | rfl | ⟨row, col, text, rfl⟩ | ⟨on, rfl⟩ <;> rfl
  cases exec_effect h with
  | refreshed | scripted => simp [isConstruct] at hi
  | nibbleSent _ _ _ _ hsends | byteSent _ _ _ _ hsends => simp [hsilent] at hsends
  | constructed | faulted | reserved | tripled | assembled | notReady | cleared | printed | ignored | lit => rfl

end Sys2Proof.Machine
end

section
/-! PROOFS. Sequencing and bounds: the cells' contents go into the payload of data bytes and nowhere else in what
REFRESH sends (R66, R182), and how many events an instruction appends (R137, R183). -/

namespace Sys2Proof.Machine

open Sys2Proof.Safety

/-! ## What the cells' contents may change (R66, R182) -/

@[simp] theorem withoutData_beginTx (a : BusAddr) : withoutData (.beginTx a) = .beginTx a := rfl
@[simp] theorem withoutData_endTx : withoutData .endTx = .endTx := rfl

/-- Without its payload a strobe pulse of a data frame is the one that carries 0. -/
theorem withoutData_pulse (n : Byte) (bl : Bool) :
    withoutData (.write (base Config.cfg n true bl)) = .write (base Config.cfg 0#8 true bl) ∧
    withoutData (.write (base Config.cfg n true bl ||| Config.cfg.enMask)) =
      .write (base Config.cfg 0#8 true bl ||| Config.cfg.enMask) := by
  revert n bl
  decide

/-- Without its payload a data frame is the one that carries 0. -/
theorem map_withoutData_dataFrame (a : BusAddr) (bl : Bool) (v : Byte) :
    (byteWriteEvents Config.cfg a bl v true).map withoutData = byteWriteEvents Config.cfg a bl 0#8 true := by
  simp [byteWriteEvents, withoutData_pulse]

/-- An address-set names the base of its row, and of a cell only the payload depends on the buffer. -/
theorem map_withoutData_refreshRows (d : Driver) (m : Memory) :
    (refreshRows Config.cfg { d with buf := m }).map withoutData = (refreshRows Config.cfg d).map withoutData := by
  have hrow : ∀ r, (rowEvents Config.cfg { d with buf := m } r).map withoutData =
      (rowEvents Config.cfg d r).map withoutData := fun r => by
    simp only [rowEvents, cellEvents, List.map_append, List.map_flatMap, map_withoutData_dataFrame]
  simp only [refreshRows, List.map_flatMap, hrow]

/-- Settles O20: what the two instances append are the rows of the two buffers. -/
theorem cellsNeverSteerRefresh : Obligations.CellsNeverSteerRefresh := by
  intro s s' t t' d m hd hd' ht ht'
  rw [exec_refresh_rows hd] at ht
  rw [exec_refresh_rows hd'] at ht'
  cases ht
  cases ht'
  exact ⟨_, _, rfl, rfl, (map_withoutData_refreshRows d m).symm⟩

/-! ## How many events an instruction appends (R137, R183) -/

/-- READY is the state with a Driver State (R25). -/
theorem ready_of_lifeName {l : Life} (h : lifeName l = .READY) : ∃ d, l = .ready d := by
  cases l with
  | ready d => exact ⟨d, rfl⟩
  | unconstructed | faulted => cases h

/-- The largest geometry, 20x4, has 80 cells and 4 rows. -/
theorem length_refreshRows_le (d : Driver) : (refreshRows Config.cfg d).length ≤ 672 := by
  have hsize : nCells Config.cfg d.geom + rows Config.cfg d.geom ≤ 84 := by cases d.geom <;> decide
  rw [length_refreshRows]
  omega

/-- No instruction appends more than a REFRESH of the largest geometry. -/
theorem exec_appends_le {s t : State} {i : Instr} (h : exec i s = .next t) :
    ∃ evs, t.trace = s.trace ++ evs ∧ evs.length ≤ 672 := by
  cases exec_effect h with
  | refreshed d =>
    rw [rowFrames_eq_refreshRows cfg_wellFormed]
    exact ⟨_, rfl, length_refreshRows_le d⟩
  | scripted d =>
    rw [initEvents_eq_scriptEvents]
    exact ⟨_, rfl, by simp [length_scriptEvents]⟩
  | nibbleSent => exact ⟨_, rfl, by simp⟩
  | byteSent => exact ⟨_, rfl, by simp⟩
  | constructed | faulted | reserved | tripled | assembled | notReady | cleared | printed | ignored | lit =>
    exact ⟨[], (List.append_nil _).symm, Nat.zero_le _⟩

/-- The script is nine waits, four nibble frames and four byte frames, so this is how often it holds what each of them
holds `w`, `n` and `b` times. -/
theorem countP_scriptEvents {c : Cfg} {a : BusAddr} {bl : Bool} {p : Event → Bool} {w n b : Nat}
    (hwait : ∀ ms, [Event.wait ms].countP p = w)
    (hnibble : ∀ v, (nibbleWriteEvents c a bl v false).countP p = n)
    (hbyte : ∀ v, (byteWriteEvents c a bl v false).countP p = b) :
    (scriptEvents c a bl).countP p = 9 * w + 4 * n + 4 * b := by
  simp only [scriptEvents, List.countP_append, hwait, hnibble, hbyte]
  ring

/-- Settles O36: INITIALIZE in READY appends the script; the bound is every instruction's. -/
theorem eventsAreBounded : Obligations.EventsAreBounded := by
  intro s t i h
  by_cases hi : i = .init ∧ lifeName s.life = .READY
  · obtain ⟨rfl, hready⟩ := hi
    obtain ⟨d, hd⟩ := ready_of_lifeName hready
    rw [exec_eq_meaningWith, init_ready _ hd] at h
    cases h
    have hlength := length_scriptEvents Config.cfg d.busAddr d.bl
    refine ⟨_, rfl, by omega, fun _ _ => ⟨hlength, ?waits, ?transactions, ?bytes⟩⟩
    case waits => exact countP_scriptEvents (w := 1) (n := 0) (b := 0) (fun _ => rfl) (fun _ => rfl) fun _ => rfl
    case transactions => exact countP_scriptEvents (w := 0) (n := 1) (b := 1) (fun _ => rfl) (fun _ => rfl) fun _ => rfl
    case bytes => exact countP_scriptEvents (w := 0) (n := 3) (b := 6) (fun _ => rfl) (fun _ => rfl) fun _ => rfl
  · obtain ⟨evs, ht, hle⟩ := exec_appends_le h
    exact ⟨evs, ht, hle, fun hinit hready => absurd ⟨hinit, hready⟩ hi⟩

end Sys2Proof.Machine
end

section
/-! PROOFS. Exceptions (R190 to R201): which check decides the outcome of a request, what a refused request leaves, and
that only a CONSTRUCT gets out of UNCONSTRUCTED and FAULTED. -/

namespace Sys2Proof.Machine

open Sys2Proof.Safety

/-! ## Which operands and operations each check of R199 is about -/

/-- The codes with a geometry are the supported ones (R95). -/
theorem geomOfCode_isSome (code : BitVec 3) : (geomOfCode Config.cfg code).isSome = supported code := by
  revert code
  decide

theorem supported_of_geomOfCode_some {code : BitVec 3} {g : Geom} (h : geomOfCode Config.cfg code = some g) :
    supported code = true := by
  rw [← geomOfCode_isSome, h, Option.isSome_some]

theorem supported_of_geomOfCode_none {code : BitVec 3} (h : geomOfCode Config.cfg code = none) :
    supported code = false := by
  rw [← geomOfCode_isSome, h, Option.isSome_none]

/-- Outside READY is where the Driver State holds no value (R25). -/
theorem driverOf_eq_none_iff (l : Life) : driverOf l = none ↔ lifeName l ≠ .READY := by
  cases l <;> simp

theorem ne_ready_of_driverOf_eq_none {l : Life} (h : driverOf l = none) (d : Driver) : l ≠ .ready d := by
  rintro rfl
  cases h

/-- The operations that send a single frame are LCDF's own, none of them a request of the host (R94). -/
theorem layer_ne_host_of_sendsFrame {i : Instr} (h : sendsFrame i = true) : (encode i).layer ≠ .host := by
  cases i with
  | construct | init | clear | print | refresh | backlight | reserved6 | reserved7 | triple | busByte => cases h
  | nibbleWrite | byteWrite | addressSet | dataWrite | init8bit | init4bit | functionSet | entryMode | displayOn
  | clearDisplay | setDdramAddr | data => simp [encode, encodeWith]

/-- An operation that needs READY is neither a reserved selector nor a CONSTRUCT. -/
theorem not_reserved_of_needsReady {i : Instr} (h : needsReady i = true) :
    ¬ (i = .reserved6 ∨ i = .reserved7) ∧ isConstruct i = false := by
  cases i with
  | init | clear | print | refresh | backlight => simp [isConstruct]
  | construct | reserved6 | reserved7 | triple | nibbleWrite | byteWrite | addressSet | dataWrite | init8bit | init4bit
  | functionSet | entryMode | displayOn | clearDisplay | setDdramAddr | data | busByte => cases h

/-! ## Refusals (R195, R199) -/

theorem needsReady_notReady (c : Cfg) {s : State} {i : Instr} (hs : driverOf s.life = none) (hi : needsReady i = true) :
    meaningWith c i s = .next (turnedAway s) := by
  cases i with
  | init | clear | print | refresh | backlight => exact whenReady_notReady _ hs
  | construct | reserved6 | reserved7 | triple | nibbleWrite | byteWrite | addressSet | dataWrite | init8bit | init4bit
  | functionSet | entryMode | displayOn | clearDisplay | setDdramAddr | data | busByte => cases hi

theorem reserved_refused (c : Cfg) (s : State) {i : Instr} (hi : i ∈ [Instr.reserved6, Instr.reserved7]) :
    meaningWith c i s = .next { s with reply := some (.refused .reservedOp) } := by
  simp only [List.mem_cons, List.not_mem_nil, or_false] at hi
  rcases hi with rfl | rfl <;> rfl

/-- Settles O7: the READY check turns the five operations away; a reserved selector is turned away before it. -/
theorem refusalsChangeNothing : Obligations.RefusalsChangeNothing := by
  simp only [Obligations.RefusalsChangeNothing, exec_eq_meaningWith]
  exact ⟨fun s i hs hi => needsReady_notReady _ hs hi, fun s i hi => reserved_refused _ s hi⟩

/-- Settles O8: each way a host request can end names the check that decided it. -/
theorem firstMatchingCheckDecides : Obligations.FirstMatchingCheckDecides := by
  intro s t i hhost h
  cases exec_effect h with
  | constructed code a g hg => simp [isConstruct, supported_of_geomOfCode_some hg]
  | faulted code a hg => simp [isConstruct, supported_of_geomOfCode_none hg]
  | reserved _ hi => rw [if_pos hi]
  | notReady _ hi hs =>
    have hneeds : needsReady i = true := hi.resolve_right fun hf => layer_ne_host_of_sendsFrame hf hhost
    obtain ⟨hreserved, hconstruct⟩ := not_reserved_of_needsReady hneeds
    rw [if_neg hreserved, if_pos ⟨hconstruct, (driverOf_eq_none_iff _).1 hs⟩]
  | tripled | assembled => cases hhost
  | nibbleSent _ _ _ _ hf | byteSent _ _ _ _ hf => exact absurd hhost (layer_ne_host_of_sendsFrame hf)
  | cleared _ hd | refreshed _ hd | scripted _ hd | lit _ _ hd | printed _ _ _ _ _ hd | ignored _ _ _ _ hd => simp [hd]

/-! ## The way out of UNCONSTRUCTED and FAULTED (R194, R201) -/

/-- Outside READY an instruction that is not a CONSTRUCT leaves everything but the reply. -/
theorem exec_notReady_keeps {s t : State} {i : Instr} (hs : driverOf s.life = none) (h : exec i s = .next t)
    (hi : isConstruct i = false) : t = { s with reply := t.reply } := by
  cases exec_effect h with
  | constructed | faulted => cases hi
  | reserved | tripled | assembled | notReady => rfl
  | cleared | printed | ignored | lit | refreshed | scripted | nibbleSent | byteSent =>
    exact absurd ‹s.life = .ready _› (ne_ready_of_driverOf_eq_none hs _)

/-- The code alone decides where a CONSTRUCT ends, whatever state it began in (R130, R193). -/
theorem construct_lifeName {s t : State} {code : BitVec 3} {a : BusAddr} (h : exec (.construct code a) s = .next t) :
    lifeName t.life = if supported code then .READY else .FAULTED := by
  rw [exec_eq_meaningWith, meaningWith, constructOp] at h
  cases hg : geomOfCode Config.cfg code with
  | some g =>
    rw [hg] at h
    rw [becomeReady_next h, supported_of_geomOfCode_some hg]
    rfl
  | none =>
    rw [hg] at h
    rw [raiseFault_next h, supported_of_geomOfCode_none hg]
    rfl

/-- Settles O9: outside READY a CONSTRUCT goes where its code says, and everything else leaves the state. -/
theorem onlyConstructLeavesFaulted : Obligations.OnlyConstructLeavesFaulted := by
  intro s t i hs h
  exact ⟨exec_notReady_keeps hs h, fun code a hi => construct_lifeName (hi ▸ h)⟩

end Sys2Proof.Machine
end

section
/-! PROOFS. Reset and hazards: no instruction reads the port or the last outcome (R10, R231), and what INITIALIZE and
REFRESH send is well-framed under every CFG with well-formed masks (R62, R222). -/

namespace Sys2Proof.Machine

/-! ## No instruction reads the port or the last outcome (R10, R231, log entries 2 and 5) -/

/-- Every way an instruction ends reports an outcome and leaves the port. -/
theorem effect_reply_port {c : Cfg} {s t : State} {i : Instr} (h : Effect c s i t) :
    t.reply ≠ none ∧ t.port = s.port := by
  cases h <;> exact ⟨Option.some_ne_none _, rfl⟩

/-- The result with another port in its next state; a stop carries no port. -/
def Result.withPort (p : List Request) : Result → Result
  | .next t => .next { t with port := p }
  | .fault f => .fault f
  | .refused r => .refused r

/-- With any other port and last outcome the operation ends in the same way, and that port is still there. -/
def PortAndReplyBlind (op : State → Result) : Prop :=
  ∀ s p r, op { s with port := p, reply := r } = Result.withPort p (op s)

/-- The READY check looks at LIFE alone. -/
theorem portAndReplyBlind_whenReady {op : Driver → State → Result} (h : ∀ d, PortAndReplyBlind (op d)) :
    PortAndReplyBlind fun s => whenReady s fun d => op d s := by
  rintro ⟨life, faultCode, trace, port, reply⟩ p r
  cases life with
  | ready d => exact h d ⟨.ready d, faultCode, trace, port, reply⟩ p r
  | unconstructed | faulted => rfl

theorem portAndReplyBlind_sends (frame : Driver → List Event) : PortAndReplyBlind fun s => sends s frame :=
  portAndReplyBlind_whenReady fun _ _ _ _ => rfl

/-- The code alone decides between fault return and fault entry. -/
theorem portAndReplyBlind_constructOp (c : Cfg) (code : BitVec 3) (a : BusAddr) :
    PortAndReplyBlind (constructOp c code a) := by
  unfold constructOp
  cases geomOfCode c code with
  | some | none => exact fun _ _ _ => rfl

/-- The grid and the buffer alone decide what PRINT does. -/
theorem portAndReplyBlind_printOp (c : Cfg) (row col : Byte) (text : List Byte) :
    PortAndReplyBlind (printOp c row col text) := by
  refine portAndReplyBlind_whenReady fun d => ?_
  split_ifs
  · cases printRun c d.geom row.toNat col.toNat text d.buf with
    | some | none => exact fun _ _ _ => rfl
  · exact fun _ _ _ => rfl

theorem portAndReplyBlind_refreshOp (c : Cfg) : PortAndReplyBlind (refreshOp c) := by
  refine portAndReplyBlind_whenReady fun d => ?_
  rw [refreshEvents_eq]
  exact fun _ _ _ => rfl

theorem portAndReplyBlind_meaningWith (c : Cfg) (i : Instr) : PortAndReplyBlind (meaningWith c i) := by
  cases i with
  | construct code a => exact portAndReplyBlind_constructOp c code a
  | print row col text => exact portAndReplyBlind_printOp c row col text
  | refresh => exact portAndReplyBlind_refreshOp c
  | clear | backlight => exact portAndReplyBlind_whenReady fun _ _ _ _ => rfl
  | reserved6 | reserved7 | triple | busByte => exact fun _ _ _ => rfl
  | init | nibbleWrite | byteWrite | addressSet | dataWrite | init8bit | init4bit | functionSet | entryMode
  | displayOn | clearDisplay | setDdramAddr | data => exact portAndReplyBlind_sends _

/-- Settles O34: every effect reports and keeps the port, and no shared operation reads either field. -/
theorem portAndReplyAreNeverRead : Obligations.PortAndReplyAreNeverRead := by
  intro s t i p r h
  obtain ⟨hreply, hport⟩ := effect_reply_port (exec_effect h)
  refine ⟨hreply, hport, ?_⟩
  rw [exec_eq_meaningWith] at h ⊢
  rw [portAndReplyBlind_meaningWith, h]
  rfl

/-! ## Framing under every CFG (R62, R116, R222) -/

/-- Settles O40: both event lists are made of waits and frames of one Driver State, and REFRESH always answers. -/
theorem framingHoldsUnderEveryCfg : Obligations.FramingHoldsUnderEveryCfg := by
  intro c d hc
  have hrows : Frames c d ((List.range (rows c d.geom)).flatMap (rowFrames c d)) := .flatMap _ (frames_rowFrames c d)
  exact ⟨framed_of_frames hc (frames_initEvents c d), _, refreshEvents_eq c d, framed_of_frames hc hrows⟩

end Sys2Proof.Machine
end
